-- ==== Sys2Proof/Word.lean ====
section
/-! DEFINITION. The words of the board core: bytes, pin words, a byte triple and a colour (spec/00_scope.md section 6,
spec/10_state.md R28 and R30, spec/42_palette_cache.md R140). -/

namespace Sys2Proof

/-- `Byte` of spec/00_scope.md section 6: 0..255. -/
abbrev Byte := BitVec 8

/-- The 32-bit pin word `P` (R80). -/
abbrev PinWord := BitVec 32

/-- Three bytes numbered 0, 1, 2: a scroll window (R28) or the input registers (R30). -/
structure Bytes3 where
  b0 : Byte
  b1 : Byte
  b2 : Byte
deriving DecidableEq, Repr, Inhabited

/-- Byte `k`; `k` is 0, 1 or 2 wherever a rule uses it. -/
def Bytes3.get (t : Bytes3) : Nat → Byte
  | 0 => t.b0
  | 1 => t.b1
  | _ => t.b2

/-- Replace byte `k`; `k` is 0, 1 or 2 wherever a rule uses it. -/
def Bytes3.set (t : Bytes3) (k : Nat) (v : Byte) : Bytes3 :=
  match k with
  | 0 => { t with b0 := v }
  | 1 => { t with b1 := v }
  | _ => { t with b2 := v }

/-- An `RGBA` colour (R140); `Machine.packColour` gives its 32-bit word. -/
structure RGBA where
  r : Byte
  g : Byte
  b : Byte
  a : Byte
deriving DecidableEq, Repr, Inhabited

end Sys2Proof
end

