-- ==== Sys2Proof/Config.lean ====
section
/-! DEFINITION. The configuration record `cfg` (spec/00_scope.md R8), the launch inputs (R23, R24), the free values
(opaque constants with no body) and the configurations the spec writes out (REF of R8, TEST of
spec/95_test_vectors.md section 0). -/

namespace Sys2Proof

/-- The three tile layers (glossary, "Tile layer"). -/
inductive TileLayer where
  | tx | fg | bg
deriving DecidableEq, Repr

/-- The two scrollable layers (R28). -/
inductive ScrollLayer where
  | fg | bg
deriving DecidableEq, Repr

/-- The ROM stores of R23. -/
inductive RomName where
  | fixed0 | fixed1 | fixed2 | bank
deriving DecidableEq, Repr

/-- One value per tile layer. -/
structure PerTile (α : Type) where
  tx : α
  fg : α
  bg : α
deriving DecidableEq, Repr

def PerTile.get {α : Type} (p : PerTile α) : TileLayer → α
  | .tx => p.tx
  | .fg => p.fg
  | .bg => p.bg

def PerTile.set {α : Type} (p : PerTile α) (l : TileLayer) (v : α) : PerTile α :=
  match l with
  | .tx => { p with tx := v }
  | .fg => { p with fg := v }
  | .bg => { p with bg := v }

/-- One value per scrollable layer. -/
structure PerScroll (α : Type) where
  fg : α
  bg : α
deriving DecidableEq, Repr

def PerScroll.get {α : Type} (p : PerScroll α) : ScrollLayer → α
  | .fg => p.fg
  | .bg => p.bg

def PerScroll.set {α : Type} (p : PerScroll α) (l : ScrollLayer) (v : α) : PerScroll α :=
  match l with
  | .fg => { p with fg := v }
  | .bg => { p with bg := v }

/-- One value per rendered layer, back to front (R203): BG, FG, TX, sprites. -/
structure PerLayer (α : Type) where
  bg : α
  fg : α
  tx : α
  spr : α
deriving DecidableEq, Repr, Inhabited

def PerLayer.ofTile {α : Type} (p : PerLayer α) : TileLayer → α
  | .tx => p.tx
  | .fg => p.fg
  | .bg => p.bg

/-- A region of the memory space: its start address and its size in bytes. -/
structure Region where
  start : Nat
  size : Nat
deriving DecidableEq, Repr

/-- A fixed ROM: its size, and its start address if it is CPU-visible (R8, D6). -/
structure FixedRom where
  start : Option Nat
  size : Nat
deriving DecidableEq, Repr

/-- What an input port returns (R8 `INPUT_PORT_MAP`, R115). -/
inductive PortSource where
  | reg (k : Fin 3)
  | const (c : Byte)
  | zero
deriving DecidableEq, Repr

/-- The classes of control the input registers hold (R30). -/
inductive ControlClass where
  | direction | action | system
deriving DecidableEq, Repr

/-- One entry of `INPUT_BITS` (R8, D39): bit `bit` of input register `reg` is control number `control` of its class. -/
structure InputBit where
  reg : Fin 3
  bit : Fin 8
  cls : ControlClass
  control : Nat
deriving DecidableEq, Repr

/-- The name of a rasterizer (R8 `RASTER[layer]`). `external id` stands for an uninterpreted deterministic function
(D34); `keep` and `rows` are `RASTER_NONE` and `RASTER_ROWS` of spec/95_test_vectors.md section 2.6. -/
inductive Rasterizer where
  | external (id : Nat)
  | keep
  | rows
deriving DecidableEq, Repr

/-- The configuration record of R8. `TPF` is `cpuFreq / refreshRate` (R185). `addrBits` bounds the regions alone, since
the pin word carries 16 address lines (notes/assumptions/15.md); no rule reads `inputBits` (notes/assumptions/18.md). -/
structure Config where
  addrBits : Nat
  rom0 : FixedRom
  rom1 : FixedRom
  rom2 : FixedRom
  workRam : Region
  tileRam : PerTile Region
  spriteRam : Region
  paletteRam : Region
  bankWindow : Region
  bankStorageSize : Nat
  bankselAddr : Nat
  bankShift : Nat
  scrollWin : PerScroll Nat
  scrollLoOff : Nat
  scrollHiOff : Nat
  scrollCorrection : Int
  codeBits : PerTile Nat
  /-- `INPUT_PORT_MAP`, a function of the address in R8, written as a list whose first entry at an address decides; no
  entry is `None` (`Config.inputPort`; DESIGN CHOICE, notes/assumptions/24.md). -/
  inputPorts : List (Nat × Option PortSource)
  inputBits : List InputBit
  cpuFreq : Nat
  refreshRate : Nat
  vblankTicks : Nat
  bgConst : Nat
  /-- `PAL_BASE`, for which the spec names no value type: natural numbers (DESIGN CHOICE, notes/assumptions/23.md). -/
  palBase : PerLayer Nat
  /-- `PRIO`, for which the spec names no value type: natural numbers (DESIGN CHOICE, notes/assumptions/23.md). -/
  prio : PerLayer Nat
  overscanRows : Nat
  visW : Nat
  visH : Nat
  bmpW : Nat
  bmpH : Nat
  gfxTiles : PerTile Nat
  raster : PerLayer Rasterizer
deriving DecidableEq, Repr

/-- `PALETTE_ENTRIES` = 1024, fixed by the source (R8, R25). -/
abbrev paletteEntries : Nat := 1024

/-- A ROM image: its size and the bytes that are not 0, as cells in rising order of offset. -/
structure Image where
  size : Nat
  cells : List Host.Cell
deriving DecidableEq, Repr

/-- The images the host supplies at launch (R23, R24, R271). A missing image is `none`. -/
structure Images where
  fixed0 : Option Image
  fixed1 : Option Image
  fixed2 : Option Image
  bank : Option Image
  tileRom : PerTile (Option Image)
  gfxSpr : Image
deriving DecidableEq, Repr

/-- The operands of HOST.RESET (R271): `cfg` and the ROM images. -/
structure Launch where
  cfg : Config
  images : Images
deriving DecidableEq, Repr

/-- A decoded tile-graphics store: per tile, its per-pixel palette-index bytes (R24). -/
abbrev Gfx := List (List Byte)

/-- `(code, color)` of a tile slot (R160). -/
structure TileInfo where
  code : Nat
  color : Nat
deriving DecidableEq, Repr, Inhabited

/-- The index-colour bitmap: rows of palette indices (R37). -/
abbrev Bitmap := List (List Nat)

/-- One bus step of a CPU slice: its pin word and its tick count (R221). -/
abbrev Slice := List (PinWord × Nat)

/-! ### Free values: draws (notes/assumptions/2.md)
Each takes a serial number, so that two draws are unrelated. -/

/-- I1: the initial contents of palette entry `i` (R25, D21). -/
opaque Config.drawColour (serial i : Nat) : RGBA
/-- I3: the data byte during an interrupt acknowledge (R117, D15). -/
opaque Config.drawByte (serial : Nat) : Byte
/-- I4: the renderer's scroll offset before the first scroll write (R29, D23). -/
opaque Config.drawScrollX (serial : Nat) (l : ScrollLayer) : Int
/-- I5: the bitmap before the first `draw()` (R37). -/
opaque Config.drawPixel (serial y x : Nat) : Nat
/-- I5: the frame before the first `draw()` (R37). -/
opaque Config.drawFramePixel (serial y x : Nat) : RGBA
/-- The renderer's cache entry of a slot before the first `draw()`, which no rule gives (R204). -/
opaque Config.drawTileInfo (serial : Nat) (l : TileLayer) (i : Nat) : TileInfo
/-- I14: the result of `ticks_to_run(t)` (R226, D40). -/
opaque Config.drawTicks (serial t : Nat) : Nat
/-- I15: the bus steps of a CPU slice asked for with a budget (R221, D35). -/
opaque Config.drawSlice (serial budget : Nat) : Slice

/-! ### Free values: external functions (notes/assumptions/3.md) -/

/-- The raw tile-ROM planar decoder (R5, R271): the pixels of tile `t` of a layer's tile ROM image. -/
opaque Config.planarTile (l : TileLayer) (image : Image) (t : Nat) : List Byte
/-- I16: the pixel at row `y`, column `x` that tile rasterizer `id` of layer `l` leaves (R204, D34). The
base and the tag it receives are natural numbers by the model's choice (notes/assumptions/23.md). -/
opaque Config.tileRaster (id : Nat) (l : TileLayer) (bitmap : Bitmap) (tc : List TileInfo) (sx : Option Int)
    (gfx : Gfx) (palBase prio : Nat) (y x : Nat) : Nat
/-- I16: the pixel at row `y`, column `x` that sprite rasterizer `id` leaves (R205, D34). The base and the
tag are natural numbers as for a tile layer (notes/assumptions/23.md). -/
opaque Config.spriteRaster (id : Nat) (bitmap : Bitmap) (spriteBytes : List Host.Cell) (gfx : Image)
    (palBase prio : Nat) (y x : Nat) : Nat

/-! ### Free values: the OPEN fields and launch inputs of the board that `State.reset` is (notes/assumptions/1.md) -/

opaque Config.openRom2Size : Nat
opaque Config.openScrollCorrection : Int
opaque Config.openInputPort (offset : Nat) : Option PortSource
opaque Config.openInputBits : List InputBit
/-- `REFRESH_RATE` is this plus 1, so that a quotient exists. -/
opaque Config.openRefreshLessOne : Nat
/-- `CPU_FREQ` is `REFRESH_RATE` plus this, which is what `TPF >= 1` (R9 (f)) says. -/
opaque Config.openCpuFreqExcess : Nat
opaque Config.openVblankTicks : Nat
opaque Config.openBgConst : Nat
opaque Config.openPalBase : PerLayer Nat
opaque Config.openPrio : PerLayer Nat
opaque Config.openOverscanRows : Nat
opaque Config.openVisW : Nat
opaque Config.openVisH : Nat
/-- Bitmap columns right of the visible ones, and rows below them (the premise of R207). -/
opaque Config.openHiddenColumns : Nat
opaque Config.openHiddenRows : Nat
/-- Tiles a store holds beyond the `2^(8 + CODE_BITS[L])` of R9 (e). -/
opaque Config.openExtraTiles (code : Nat) : Nat
/-- Byte `offset` of a ROM image (I24). -/
opaque Config.openRomByte (rom : Nat) (offset : Nat) : Byte
opaque Config.openTileRomSize (layer : Nat) : Nat
opaque Config.openTileRomByte (layer offset : Nat) : Byte
opaque Config.openGfxSprSize : Nat
opaque Config.openGfxSprByte (offset : Nat) : Byte

/-- The four palette-bank bases are pairwise distinct (R203). -/
def PerLayer.distinct (p : PerLayer Nat) : Bool := decide [p.bg, p.fg, p.tx, p.spr].Nodup

/-- The open palette-bank bases, cut to the premise "distinct" of R203. -/
def Config.someDistinctBases : PerLayer Nat :=
  if Config.openPalBase.distinct then Config.openPalBase else ⟨0, 1, 2, 3⟩

/-- REF of R8: its general-knowledge values, every OPEN field a free value. -/
def Config.ref : Config where
  addrBits := 16
  rom0 := ⟨some 0x0000, 0x8000⟩
  rom1 := ⟨some 0x8000, 0x4000⟩
  rom2 := ⟨none, Config.openRom2Size⟩
  workRam := ⟨0xC000, 0x1000⟩
  tileRam := ⟨⟨0xD000, 0x800⟩, ⟨0xD800, 0x400⟩, ⟨0xDC00, 0x400⟩⟩
  spriteRam := ⟨0xE000, 0x800⟩
  paletteRam := ⟨0xE800, 0x800⟩
  bankWindow := ⟨0xF000, 0x800⟩
  bankStorageSize := 0x8000
  bankselAddr := 0xF808
  bankShift := 3
  scrollWin := ⟨0xF800, 0xF803⟩
  scrollLoOff := 0
  scrollHiOff := 1
  scrollCorrection := Config.openScrollCorrection
  codeBits := ⟨2, 3, 3⟩
  inputPorts := (List.range 16).map fun k => (0xF800 + k, Config.openInputPort k)
  inputBits := Config.openInputBits
  cpuFreq := Config.openRefreshLessOne + 1 + Config.openCpuFreqExcess
  refreshRate := Config.openRefreshLessOne + 1
  vblankTicks := Config.openVblankTicks
  bgConst := Config.openBgConst
  palBase := Config.someDistinctBases
  prio := Config.openPrio
  overscanRows := Config.openOverscanRows
  visW := Config.openVisW
  visH := Config.openVisH
  bmpW := Config.openVisW + Config.openHiddenColumns
  bmpH := Config.openOverscanRows + Config.openVisH + Config.openHiddenRows
  gfxTiles := ⟨2 ^ 10 + Config.openExtraTiles 0, 2 ^ 11 + Config.openExtraTiles 1, 2 ^ 11 + Config.openExtraTiles 2⟩
  raster := ⟨.external 0, .external 0, .external 0, .external 0⟩

/-- TEST of spec/95_test_vectors.md section 0 on the REF map, with the compositor dimensions and rasterizers of its
section 2.6 (vector V110). The fields it leaves open (third ROM, input bits, bases and tags, the split of `TPF` into two
frequencies) are given small values (DESIGN CHOICE, notes/assumptions/19.md). -/
def Config.test : Config where
  addrBits := 16
  rom0 := ⟨some 0x0000, 0x8000⟩
  rom1 := ⟨some 0x8000, 0x4000⟩
  rom2 := ⟨none, 0⟩
  workRam := ⟨0xC000, 0x1000⟩
  tileRam := ⟨⟨0xD000, 0x800⟩, ⟨0xD800, 0x400⟩, ⟨0xDC00, 0x400⟩⟩
  spriteRam := ⟨0xE000, 0x800⟩
  paletteRam := ⟨0xE800, 0x800⟩
  bankWindow := ⟨0xF000, 0x800⟩
  bankStorageSize := 0x8000
  bankselAddr := 0xF808
  bankShift := 3
  scrollWin := ⟨0xF800, 0xF803⟩
  scrollLoOff := 0
  scrollHiOff := 1
  scrollCorrection := 0x10
  codeBits := ⟨2, 3, 3⟩
  inputPorts := [(0xF800, some (.reg 0)), (0xF801, some (.reg 1)), (0xF802, some (.reg 2)), (0xF803, some (.const 0x5A))]
    ++ (List.range 12).map fun k => (0xF804 + k, some .zero)
  inputBits := []
  cpuFreq := 100
  refreshRate := 1
  vblankTicks := 20
  bgConst := 5
  palBase := ⟨0, 1, 2, 3⟩
  prio := ⟨0, 1, 2, 3⟩
  overscanRows := 2
  visW := 4
  visH := 4
  bmpW := 4
  bmpH := 6
  gfxTiles := ⟨2 ^ 10, 2 ^ 11, 2 ^ 11⟩
  raster := ⟨.keep, .keep, .keep, .keep⟩

/-- An image of `size` bytes, all 0. -/
def Image.zeros (size : Nat) : Image := ⟨size, []⟩

/-- The launch a bare HOST.RESET selector carries (notes/assumptions/8.md): TEST with images of zero bytes. -/
def Launch.bare : Launch where
  cfg := Config.test
  images :=
    { fixed0 := some (.zeros 0x8000), fixed1 := some (.zeros 0x4000), fixed2 := some (.zeros 0),
      bank := some (.zeros 0x8000), tileRom := ⟨some (.zeros 0), some (.zeros 0), some (.zeros 0)⟩,
      gfxSpr := .zeros 0 }

end Sys2Proof
end

