-- ==== Sys2Proof/Syntax.lean ====
section
/-! DEFINITION. The calls the block receives (spec/30_encoding.md R80, R85) and its instructions: one constructor per
row of spec/opcode_table.json, each holding its decoded operands and the free pin bits of its row. -/

namespace Sys2Proof

/-- The pins of `P` outside the control field `CTL`, and the tick count (R80, R84). Bits 29 and 31 pass through; bit
30 is the INT pin as presented, which the block replaces. -/
structure BusOperands where
  addr : BitVec 16
  data : Byte
  p29 : Bool
  p30 : Bool
  p31 : Bool
  ticks : Nat
deriving DecidableEq, Repr

/-- The instructions: 25 rows of format BUS, then 9 rows of format HOST. -/
inductive Instr where
  /-- ILLEGAL.RDWR, R82 row 1: IORQ, MREQ and M1 are free. -/
  | illegalRdwr (iorq mreq m1 : Bool) (b : BusOperands)
  /-- ILLEGAL.MEMIO, R82 row 2: WR, RD (not both) and M1 are free. -/
  | illegalMemio (wr rd m1 : Bool) (b : BusOperands)
  /-- INTA, R82 row 3: WR and RD (not both) are free. -/
  | inta (wr rd : Bool) (b : BusOperands)
  | ioRd (b : BusOperands)
  | ioWr (b : BusOperands)
  | ioIdle (b : BusOperands)
  | illegalM1wr (b : BusOperands)
  /-- MEM.RD.*, R82 row 8: M1 is free (an opcode fetch). -/
  | memRdGeneric (m1 : Bool) (b : BusOperands)
  | memRdBankwin (m1 : Bool) (b : BusOperands)
  | memRdInput (m1 : Bool) (b : BusOperands)
  | memRdUnmapped (m1 : Bool) (b : BusOperands)
  | memWrWorkram (b : BusOperands)
  | memWrTxram (b : BusOperands)
  | memWrFgram (b : BusOperands)
  | memWrBgram (b : BusOperands)
  | memWrSprram (b : BusOperands)
  | memWrPalram (b : BusOperands)
  | memWrRom (b : BusOperands)
  | memWrScrollfg (b : BusOperands)
  | memWrScrollbg (b : BusOperands)
  | memWrBanksel (b : BusOperands)
  | memWrBankwin (b : BusOperands)
  | memWrUnmapped (b : BusOperands)
  /-- MEM.IDLE, R82 row 10: M1 is free. -/
  | memIdle (m1 : Bool) (b : BusOperands)
  /-- NONE, R82 row 11: WR, RD (not both) and M1 are free. -/
  | noRequest (wr rd m1 : Bool) (b : BusOperands)
  | hostReset (launch : Launch)
  | hostBusStep (pins : PinWord) (ticks : Nat)
  | hostTileInfoTx (i : Nat)
  | hostTileInfoFg (i : Nat)
  | hostTileInfoBg (i : Nat)
  | hostPalLookup (i : Nat)
  | hostDraw
  /-- HOST.RUN_FRAME, R220: the elapsed time is a natural number by the model's choice (notes/assumptions/22.md). -/
  | hostRunFrame (t : Nat)
  | hostInputSet (k : Fin 3) (v : Byte)
deriving DecidableEq, Repr

/-- The operands a collaborator passes beside a HOST selector; each operation reads its own (R85).
`time` is the elapsed time of HOST.RUN_FRAME; R220 names no type and no unit for it, and a natural number without a
unit is the model's choice (DESIGN CHOICE, notes/assumptions/22.md). -/
structure HostOperands where
  pins : PinWord
  ticks : Nat
  index : Nat
  time : Nat
  value : Byte
  launch : Launch
deriving DecidableEq, Repr

/-- Operands of zeros; the launch operand, which has no bits, is `Launch.bare` (notes/assumptions/8.md). -/
def HostOperands.zero : HostOperands := ⟨0, 0, 0, 0, 0, Launch.bare⟩

/-- One call into the block: a bus step's pin word and tick count, or a HOST selector and its operands (R80, R85). -/
inductive Call where
  | bus (pins : PinWord) (ticks : Nat)
  | host (selector : BitVec 8) (ops : HostOperands)
deriving DecidableEq, Repr

end Sys2Proof
end

