-- ==== Sys2Proof/Decode.lean ====
section
/-! DEFINITION. The decoder of pin words and HOST selectors, and after it the encoder (spec/30_encoding.md,
spec/41_bus_dispatch.md R101 and R102). -/

namespace Sys2Proof

/-! ### Quantities the configuration fixes -/

/-- `start <= A < start + size`. -/
def Region.contains (r : Region) (a : Nat) : Bool := decide (r.start ≤ a) && decide (a < r.start + r.size)

/-- `HALF[L] = TILE_RAM[L].size / 2` (R8). -/
def Config.half (cfg : Config) (l : TileLayer) : Nat := (cfg.tileRam.get l).size / 2

/-- `TPF = CPU_FREQ / REFRESH_RATE`, integer division (R185). -/
def Config.tpf (cfg : Config) : Nat := cfg.cpuFreq / cfg.refreshRate

/-! ### The pin word (R80) -/

/-- The control field `CTL = P[28:24]` (R82). -/
structure Ctl where
  wr : Bool
  rd : Bool
  iorq : Bool
  mreq : Bool
  m1 : Bool
deriving DecidableEq, Repr

/-- Address lines, `P[15:0]`. -/
def PinWord.addr (p : PinWord) : BitVec 16 := p.extractLsb' 0 16
/-- Data lines, `P[23:16]`. -/
def PinWord.data (p : PinWord) : Byte := p.extractLsb' 16 8
/-- The interrupt-request line, bit 30. -/
def PinWord.int (p : PinWord) : Bool := p.getLsbD 30

/-- Read `CTL`: M1 24, MREQ 25, IORQ 26, RD 27, WR 28. -/
def Ctl.ofPins (p : PinWord) : Ctl where
  wr := p.getLsbD 28
  rd := p.getLsbD 27
  iorq := p.getLsbD 26
  mreq := p.getLsbD 25
  m1 := p.getLsbD 24

/-- Read the other pins. -/
def BusOperands.ofPins (p : PinWord) (n : Nat) : BusOperands where
  addr := p.addr
  data := p.data
  p29 := p.getLsbD 29
  p30 := p.getLsbD 30
  p31 := p.getLsbD 31
  ticks := n

/-- Put the pins together, bit 31 first. -/
def pack (c : Ctl) (b : BusOperands) : PinWord :=
  BitVec.ofBool b.p31 ++ (BitVec.ofBool b.p30 ++ (BitVec.ofBool b.p29 ++
    (BitVec.ofBool c.wr ++ (BitVec.ofBool c.rd ++ (BitVec.ofBool c.iorq ++ (BitVec.ofBool c.mreq ++
      (BitVec.ofBool c.m1 ++ (b.data ++ b.addr))))))))

/-! ### Classification (R82) -/

inductive CycleKind where
  | illegalRdwr | illegalMemio | inta | ioRead | ioWrite | ioIdle | illegalM1wr | memRead | memWrite | memIdle
  | noRequest
deriving DecidableEq, Repr

/-- The first matching row of R82, top to bottom; its last row takes what is left. -/
def classify (c : Ctl) : CycleKind :=
  if c.wr && c.rd then .illegalRdwr
  else if c.iorq && c.mreq then .illegalMemio
  else if c.iorq && !c.mreq && c.m1 then .inta
  else if !c.wr && c.rd && c.iorq && !c.mreq && !c.m1 then .ioRead
  else if c.wr && !c.rd && c.iorq && !c.mreq && !c.m1 then .ioWrite
  else if !c.wr && !c.rd && c.iorq && !c.mreq && !c.m1 then .ioIdle
  else if c.wr && !c.rd && !c.iorq && c.mreq && c.m1 then .illegalM1wr
  else if !c.wr && c.rd && !c.iorq && c.mreq then .memRead
  else if c.wr && !c.rd && !c.iorq && c.mreq && !c.m1 then .memWrite
  else if !c.wr && !c.rd && !c.iorq && c.mreq then .memIdle
  else .noRequest

/-! ### Address decode (R101, R102) -/

/-- The byte stores of the block: the six RAM arrays (R22) and the four ROM arrays (R23). -/
inductive Store where
  | rom (r : RomName)
  | work
  | tile (l : TileLayer)
  | sprite
  | palette
deriving DecidableEq, Repr

/-- A fixed ROM at its place in the memory space, if it has one. -/
def FixedRom.region? (r : FixedRom) : Option Region := r.start.map fun s => ⟨s, r.size⟩

def FixedRom.contains (r : FixedRom) (a : Nat) : Bool :=
  match r.region? with
  | some g => g.contains a
  | none => false

def FixedRom.base (r : FixedRom) : Nat := r.start.getD 0

/-- R101 entry 1: the store a generic read reaches and the offset in it. -/
def Config.genericTarget (cfg : Config) (a : Nat) : Option (Store × Nat) :=
  if cfg.rom0.contains a then some (.rom .fixed0, a - cfg.rom0.base)
  else if cfg.rom1.contains a then some (.rom .fixed1, a - cfg.rom1.base)
  else if cfg.rom2.contains a then some (.rom .fixed2, a - cfg.rom2.base)
  else if cfg.workRam.contains a then some (.work, a - cfg.workRam.start)
  else if cfg.tileRam.tx.contains a then some (.tile .tx, a - cfg.tileRam.tx.start)
  else if cfg.tileRam.fg.contains a then some (.tile .fg, a - cfg.tileRam.fg.start)
  else if cfg.tileRam.bg.contains a then some (.tile .bg, a - cfg.tileRam.bg.start)
  else if cfg.spriteRam.contains a then some (.sprite, a - cfg.spriteRam.start)
  else if cfg.paletteRam.contains a then some (.palette, a - cfg.paletteRam.start)
  else none

/-- `INPUT_PORT_MAP(A)`: the first entry at `A`; no entry is `None` (notes/assumptions/24.md). -/
def findPort : List (Nat × Option PortSource) → Nat → Option PortSource
  | [], _ => none
  | (p, src) :: rest, a => if p = a then src else findPort rest a

def Config.inputPort (cfg : Config) (a : Nat) : Option PortSource := findPort cfg.inputPorts a

inductive ReadTarget where
  | generic | bankwin | input | unmapped
deriving DecidableEq, Repr

/-- The memory-read decode order of R101. -/
def Config.readTarget (cfg : Config) (a : Nat) : ReadTarget :=
  if (cfg.genericTarget a).isSome then .generic
  else if cfg.bankWindow.contains a then .bankwin
  else if (cfg.inputPort a).isSome then .input
  else .unmapped

/-- The 3-byte scroll window of a layer (R28). -/
def Config.scrollRegion (cfg : Config) (l : ScrollLayer) : Region := ⟨cfg.scrollWin.get l, 3⟩

inductive WriteTarget where
  | workram | txram | fgram | bgram | sprram | palram | rom | scrollfg | scrollbg | banksel | bankwin | unmapped
deriving DecidableEq, Repr

/-- The memory-write decode order of R102. -/
def Config.writeTarget (cfg : Config) (a : Nat) : WriteTarget :=
  if cfg.workRam.contains a then .workram
  else if cfg.tileRam.tx.contains a then .txram
  else if cfg.tileRam.fg.contains a then .fgram
  else if cfg.tileRam.bg.contains a then .bgram
  else if cfg.spriteRam.contains a then .sprram
  else if cfg.paletteRam.contains a then .palram
  else if cfg.rom0.contains a || cfg.rom1.contains a || cfg.rom2.contains a then .rom
  else if (cfg.scrollRegion .fg).contains a then .scrollfg
  else if (cfg.scrollRegion .bg).contains a then .scrollbg
  else if a = cfg.bankselAddr then .banksel
  else if cfg.bankWindow.contains a then .bankwin
  else .unmapped

/-! ### The decoder -/

def decodeRead (t : ReadTarget) (m1 : Bool) (b : BusOperands) : Instr :=
  match t with
  | .generic => .memRdGeneric m1 b
  | .bankwin => .memRdBankwin m1 b
  | .input => .memRdInput m1 b
  | .unmapped => .memRdUnmapped m1 b

def decodeWrite (t : WriteTarget) (b : BusOperands) : Instr :=
  match t with
  | .workram => .memWrWorkram b
  | .txram => .memWrTxram b
  | .fgram => .memWrFgram b
  | .bgram => .memWrBgram b
  | .sprram => .memWrSprram b
  | .palram => .memWrPalram b
  | .rom => .memWrRom b
  | .scrollfg => .memWrScrollfg b
  | .scrollbg => .memWrScrollbg b
  | .banksel => .memWrBanksel b
  | .bankwin => .memWrBankwin b
  | .unmapped => .memWrUnmapped b

/-- Format BUS: every pin word is some row (R82, R83). -/
def decodeBus (cfg : Config) (p : PinWord) (n : Nat) : Instr :=
  let c := Ctl.ofPins p
  let b := BusOperands.ofPins p n
  match classify c with
  | .illegalRdwr => .illegalRdwr c.iorq c.mreq c.m1 b
  | .illegalMemio => .illegalMemio c.wr c.rd c.m1 b
  | .inta => .inta c.wr c.rd b
  | .ioRead => .ioRd b
  | .ioWrite => .ioWr b
  | .ioIdle => .ioIdle b
  | .illegalM1wr => .illegalM1wr b
  | .memRead => decodeRead (cfg.readTarget b.addr.toNat) c.m1 b
  | .memWrite => decodeWrite (cfg.writeTarget b.addr.toNat) b
  | .memIdle => .memIdle c.m1 b
  | .noRequest => .noRequest c.wr c.rd c.m1 b

/-- Why a call has no instruction. -/
inductive DecodeError where
  /-- A HOST selector outside the table of R85 (R87). -/
  | reservedHostOp (selector : BitVec 8)
deriving DecidableEq, Repr

/-- Format HOST: the table of R85; every other selector is reserved (R87). -/
def decodeHost (h : BitVec 8) (o : HostOperands) : Except DecodeError Instr :=
  if h = 0b00000000#8 then .ok (.hostReset o.launch)
  else if h = 0b00000001#8 then .ok (.hostBusStep o.pins o.ticks)
  else if h = 0b00010000#8 then .ok (.hostTileInfoTx o.index)
  else if h = 0b00010001#8 then .ok (.hostTileInfoFg o.index)
  else if h = 0b00010010#8 then .ok (.hostTileInfoBg o.index)
  else if h = 0b00100000#8 then .ok (.hostPalLookup o.index)
  else if h = 0b00110000#8 then .ok .hostDraw
  else if h = 0b01000000#8 then .ok (.hostRunFrame o.time)
  else if h = 0b01010000#8 then .ok (.hostInputSet 0 o.value)
  else if h = 0b01010001#8 then .ok (.hostInputSet 1 o.value)
  else if h = 0b01010010#8 then .ok (.hostInputSet 2 o.value)
  else .error (.reservedHostOp h)

/-- The decoder: total on every call, refusing a reserved selector by name. -/
def decode (cfg : Config) : Call → Except DecodeError Instr
  | .bus p n => .ok (decodeBus cfg p n)
  | .host h o => decodeHost h o

/-! ### The encoder -/

def Ctl.illegalRdwr (iorq mreq m1 : Bool) : Ctl := ⟨true, true, iorq, mreq, m1⟩
def Ctl.illegalMemio (wr rd m1 : Bool) : Ctl := ⟨wr, rd, true, true, m1⟩
def Ctl.inta (wr rd : Bool) : Ctl := ⟨wr, rd, true, false, true⟩
def Ctl.ioRd : Ctl := ⟨false, true, true, false, false⟩
def Ctl.ioWr : Ctl := ⟨true, false, true, false, false⟩
def Ctl.ioIdle : Ctl := ⟨false, false, true, false, false⟩
def Ctl.illegalM1wr : Ctl := ⟨true, false, false, true, true⟩
def Ctl.memRd (m1 : Bool) : Ctl := ⟨false, true, false, true, m1⟩
def Ctl.memWr : Ctl := ⟨true, false, false, true, false⟩
def Ctl.memIdle (m1 : Bool) : Ctl := ⟨false, false, false, true, m1⟩
def Ctl.noRequest (wr rd m1 : Bool) : Ctl := ⟨wr, rd, false, false, m1⟩

def encodeBus (c : Ctl) (b : BusOperands) : Call := .bus (pack c b) b.ticks

/-- The words of an instruction, from R80, R82 and R85. -/
def encode : Instr → Call
  | .illegalRdwr iorq mreq m1 b => encodeBus (.illegalRdwr iorq mreq m1) b
  | .illegalMemio wr rd m1 b => encodeBus (.illegalMemio wr rd m1) b
  | .inta wr rd b => encodeBus (.inta wr rd) b
  | .ioRd b => encodeBus .ioRd b
  | .ioWr b => encodeBus .ioWr b
  | .ioIdle b => encodeBus .ioIdle b
  | .illegalM1wr b => encodeBus .illegalM1wr b
  | .memRdGeneric m1 b => encodeBus (.memRd m1) b
  | .memRdBankwin m1 b => encodeBus (.memRd m1) b
  | .memRdInput m1 b => encodeBus (.memRd m1) b
  | .memRdUnmapped m1 b => encodeBus (.memRd m1) b
  | .memWrWorkram b => encodeBus .memWr b
  | .memWrTxram b => encodeBus .memWr b
  | .memWrFgram b => encodeBus .memWr b
  | .memWrBgram b => encodeBus .memWr b
  | .memWrSprram b => encodeBus .memWr b
  | .memWrPalram b => encodeBus .memWr b
  | .memWrRom b => encodeBus .memWr b
  | .memWrScrollfg b => encodeBus .memWr b
  | .memWrScrollbg b => encodeBus .memWr b
  | .memWrBanksel b => encodeBus .memWr b
  | .memWrBankwin b => encodeBus .memWr b
  | .memWrUnmapped b => encodeBus .memWr b
  | .memIdle m1 b => encodeBus (.memIdle m1) b
  | .noRequest wr rd m1 b => encodeBus (.noRequest wr rd m1) b
  | .hostReset l => .host 0b00000000#8 { HostOperands.zero with launch := l }
  | .hostBusStep p n => .host 0b00000001#8 { HostOperands.zero with pins := p, ticks := n }
  | .hostTileInfoTx i => .host 0b00010000#8 { HostOperands.zero with index := i }
  | .hostTileInfoFg i => .host 0b00010001#8 { HostOperands.zero with index := i }
  | .hostTileInfoBg i => .host 0b00010010#8 { HostOperands.zero with index := i }
  | .hostPalLookup i => .host 0b00100000#8 { HostOperands.zero with index := i }
  | .hostDraw => .host 0b00110000#8 HostOperands.zero
  | .hostRunFrame t => .host 0b01000000#8 { HostOperands.zero with time := t }
  | .hostInputSet k v => .host (0b01010000#8 ||| BitVec.ofNat 8 k.val) { HostOperands.zero with value := v }

/-! ### The table's words -/

/-- The call an opcode-table word stands for: 32 bits are a pin word with tick count 0, 8 bits are a HOST selector
with operands of zeros. -/
def tableCall (nbits w : Nat) : Option Call :=
  if nbits = 32 then some (.bus (BitVec.ofNat 32 w) 0)
  else if nbits = 8 then some (.host (BitVec.ofNat 8 w) HostOperands.zero)
  else none

/-- The instruction the decoder reads from an opcode-table word, under REF's address map: the rows MEM.RD.* share one
word, as do the rows MEM.WR.*, and the address tells them apart (R83; notes/assumptions/17.md). -/
def decodeTableWord (nbits w : Nat) : Option Instr :=
  match tableCall nbits w with
  | none => none
  | some c =>
    match decode Config.ref c with
    | .ok i => some i
    | .error _ => none

end Sys2Proof
end

