-- ==== Sys2Proof/Machine/Memory.lean ====
section
/-! DEFINITION. A byte store as a list of cells in one canonical form: offsets strictly rising, no cell equal to 0,
which is what an unlisted offset reads as (spec/10_state.md R22: "zeroed RAM"; notes/assumptions/13.md). -/

namespace Sys2Proof.Machine

abbrev Memory := List Host.Cell

/-- The byte at an offset; an unlisted offset reads as 0. -/
def Memory.read : Memory → Nat → Byte
  | [], _ => 0
  | (k, b) :: rest, a => if k = a then b else Memory.read rest a

/-- Cells in front of `rest`, leaving out a 0. -/
def Memory.put (a : Nat) (v : Byte) (rest : Memory) : Memory := if v = 0 then rest else (a, v) :: rest

/-- Store a byte at an offset, keeping the canonical form. -/
def Memory.write : Memory → Nat → Byte → Memory
  | [], a, v => Memory.put a v []
  | (k, b) :: rest, a, v =>
    if a < k then Memory.put a v ((k, b) :: rest)
    else if a = k then Memory.put a v rest
    else (k, b) :: Memory.write rest a v

/-- Offsets rise strictly from `lo` on and no byte is 0. -/
def Memory.wfFrom : Nat → Memory → Bool
  | _, [] => true
  | lo, (k, b) :: rest => decide (lo ≤ k) && decide (b ≠ 0) && Memory.wfFrom (k + 1) rest

/-- The canonical form. -/
def Memory.wf (m : Memory) : Bool := Memory.wfFrom 0 m

/-- Every listed offset lies below `size`. -/
def Memory.within (size : Nat) (m : Memory) : Bool := m.all fun c => decide (c.1 < size)

/-- The store of `count` bytes from offset `start` on whose byte at `i` is `f i`. -/
def Memory.ofFn (f : Nat → Byte) : Nat → Nat → Memory
  | _, 0 => []
  | start, count + 1 => Memory.put start (f start) (Memory.ofFn f (start + 1) count)

/-- An image is well formed: canonical, and nothing outside its size. -/
def imageOk (i : Image) : Bool := Memory.wf i.cells && Memory.within i.size i.cells

/-- The image of `size` bytes whose byte at `o` is `f o`. -/
def imageOf (size : Nat) (f : Nat → Byte) : Image := ⟨size, Memory.ofFn f 0 size⟩

end Sys2Proof.Machine
end

