-- ==== Sys2Proof/Machine/Launch.lean ====
section
/-! DEFINITION. When a launch gives an initial state (spec/00_scope.md R9, spec/70_reset_and_hazards.md R271, R272). -/

namespace Sys2Proof.Machine

/-- Two regions share no address. -/
def regionsDisjoint (r q : Region) : Bool :=
  decide (r.size = 0) || decide (q.size = 0) || decide (r.start + r.size ≤ q.start)
    || decide (q.start + q.size ≤ r.start)

/-- No two regions of a list share an address. -/
def pairwiseDisjoint : List Region → Bool
  | [] => true
  | r :: rest => rest.all (regionsDisjoint r) && pairwiseDisjoint rest

/-- The fixed ROMs that are CPU-visible. -/
def visibleRoms (cfg : Config) : List Region :=
  cfg.rom0.region?.toList ++ (cfg.rom1.region?.toList ++ cfg.rom2.region?.toList)

/-- The regions of R9 (b). -/
def storeRegions (cfg : Config) : List Region :=
  visibleRoms cfg ++ [cfg.workRam, cfg.tileRam.tx, cfg.tileRam.fg, cfg.tileRam.bg, cfg.spriteRam, cfg.paletteRam]

/-- The register windows of R9 (h). -/
def registerRegions (cfg : Config) : List Region :=
  [cfg.scrollRegion .fg, cfg.scrollRegion .bg, ⟨cfg.bankselAddr, 1⟩, cfg.bankWindow]

/-- R9 (a) for one region. -/
def inSpace (cfg : Config) (r : Region) : Bool := decide (r.start + r.size ≤ 2 ^ cfg.addrBits)

/-- R9 (a) and (h) for the address of one entry of the list that writes the input-port map down. What the map answers
there counts, not the entry: an address that maps to `None` is no input port, and an entry that an earlier one at its
address hides asks for nothing (notes/assumptions/24.md). -/
def portOk (cfg : Config) (e : Nat × Option PortSource) : Bool :=
  (inSpace cfg ⟨e.1, 1⟩ && (storeRegions cfg).all (regionsDisjoint ⟨e.1, 1⟩)) || (cfg.inputPort e.1).isNone

/-- R9 (e): every code indexes the layer's store. -/
def storeHoldsCodes (cfg : Config) (l : TileLayer) : Bool :=
  decide (2 ^ (8 + cfg.codeBits.get l) ≤ cfg.gfxTiles.get l)

/-- R9 (a) to (h), with the premises of R203 (distinct bases), R207 (the visible rectangle lies in the bitmap) and R8
(the scroll offsets lie inside a window). -/
def configOk (cfg : Config) : Bool :=
  (storeRegions cfg).all (inSpace cfg) && (registerRegions cfg).all (inSpace cfg)
    && pairwiseDisjoint (storeRegions cfg)
    && decide (cfg.tileRam.tx.size % 2 = 0) && decide (cfg.tileRam.fg.size % 2 = 0)
    && decide (cfg.tileRam.bg.size % 2 = 0)
    && decide (cfg.paletteRam.size = 2 * paletteEntries)
    && storeHoldsCodes cfg .tx && storeHoldsCodes cfg .fg && storeHoldsCodes cfg .bg
    && decide (1 ≤ cfg.tpf)
    && decide (cfg.bankShift ≤ 8)
    && (registerRegions cfg).all (fun r => (storeRegions cfg).all (regionsDisjoint r))
    && cfg.inputPorts.all (portOk cfg)
    && cfg.palBase.distinct
    && decide (cfg.overscanRows + cfg.visH ≤ cfg.bmpH) && decide (cfg.visW ≤ cfg.bmpW)
    && decide (cfg.scrollLoOff < 3) && decide (cfg.scrollHiOff < 3)

/-- An image is there and has its configured size (R271). -/
def imageGiven (size : Nat) : Option Image → Bool
  | some i => decide (i.size = size) && imageOk i
  | none => false

/-- A tile ROM image is there; the configuration gives it no size. -/
def tileImageGiven : Option Image → Bool
  | some i => imageOk i
  | none => false

/-- The launch gives an initial state (R271, R272). -/
def launchOk (l : Launch) : Bool :=
  configOk l.cfg
    && imageGiven l.cfg.rom0.size l.images.fixed0 && imageGiven l.cfg.rom1.size l.images.fixed1
    && imageGiven l.cfg.rom2.size l.images.fixed2 && imageGiven l.cfg.bankStorageSize l.images.bank
    && tileImageGiven l.images.tileRom.tx && tileImageGiven l.images.tileRom.fg
    && tileImageGiven l.images.tileRom.bg && imageOk l.images.gfxSpr

/-- The launch of the board that `State.reset` is: REF, and images whose bytes are free values. -/
def Launch.ref : Launch where
  cfg := Config.ref
  images :=
    { fixed0 := some (imageOf 0x8000 (Config.openRomByte 0))
      fixed1 := some (imageOf 0x4000 (Config.openRomByte 1))
      fixed2 := some (imageOf Config.openRom2Size (Config.openRomByte 2))
      bank := some (imageOf 0x8000 (Config.openRomByte 3))
      tileRom :=
        ⟨some (imageOf (Config.openTileRomSize 0) (Config.openTileRomByte 0)),
         some (imageOf (Config.openTileRomSize 1) (Config.openTileRomByte 1)),
         some (imageOf (Config.openTileRomSize 2) (Config.openTileRomByte 2))⟩
      gfxSpr := imageOf Config.openGfxSprSize Config.openGfxSprByte }

end Sys2Proof.Machine
end

