-- ==== Sys2Proof/Machine/State.lean ====
section
/-! DEFINITION. The state of the board core (spec/10_state.md), the reasons a step can stop (spec/60_exceptions.md
R241), and the state after reset (spec/70_reset_and_hazards.md R270). -/

namespace Sys2Proof.Machine

/-- The model faults of R241, each with the value recorded, and the one stuck case I13. All are safe: the machine stops
where the spec gives no result. -/
inductive Fault where
  /-- Code 1, raised by ILLEGAL.RDWR, ILLEGAL.MEMIO and ILLEGAL.M1WR (R124). Safe: the source gives these pins no
  meaning. -/
  | illegalPins (pins : PinWord)
  /-- Code 2, raised by MEM.RD.BANKWIN (R114). Safe: the source gives the window no contents for such a bank. -/
  | bankOutOfRange (addr : BitVec 16) (bank : Byte)
  /-- Code 3, raised by HOST.TILE_INFO.TX, .FG and .BG (R161 to R163). Safe: such a slot has no bytes. -/
  | slotOutOfRange (layer : TileLayer) (slot : Nat)
  /-- Code 4, raised by HOST.PAL_LOOKUP (R143) and, with the pixel (x, y), by HOST.DRAW (R208). Safe: the table has no
  such entry. -/
  | paletteIndexOutOfRange (index : Nat) (pixel : Option (Nat × Nat))
  /-- Code 5, recorded for a reserved HOST selector (R87); `step` itself answers the refusal of that name. Safe. -/
  | reservedHostOp (selector : BitVec 8)
  /-- I13, raised by HOST.RUN_FRAME: the CPU engine returned 0 ticks while ticks remain, so the loop of R220 would not
  end. It breaks a host duty of R234. Safe: the model is stuck. -/
  | engineStalled
deriving DecidableEq, Repr

/-- The codes of R241. -/
def Fault.code : Fault → Option Nat
  | .illegalPins _ => some 1
  | .bankOutOfRange _ _ => some 2
  | .slotOutOfRange _ _ => some 3
  | .paletteIndexOutOfRange _ _ => some 4
  | .reservedHostOp _ => some 5
  | .engineStalled => none

/-- Why the model has no meaning for a call. -/
inductive Refusal where
  /-- An instruction with no meaning yet: no arm of `exec` answers it. Safe. -/
  | notModelled (mnemonic : String)
  /-- Raised by `step` for a HOST selector outside the table of R85 (R87). Safe. -/
  | reservedHostOp (selector : BitVec 8)
  /-- Raised by HOST.RESET for a launch that gives no initial state (R272). Safe. -/
  | launchRefused
deriving DecidableEq, Repr

/-- What the block hands to its collaborators during a call, oldest first (R228, R229, R234). Keeping it in the state is
the model's own (DESIGN CHOICE, notes/assumptions/6.md). -/
inductive Output where
  /-- The pin word `P'` a bus step returns (R100). -/
  | pins (p : PinWord)
  /-- `mark_tile_dirty(L, i)` (R105 to R107). -/
  | markTileDirty (l : TileLayer) (i : Nat)
  /-- `set_scroll_x(L, v)` (R111, R119). -/
  | setScrollX (l : ScrollLayer) (v : Int)
  /-- An answered `tile_info(i)` of layer `L` (R160). -/
  | tileInfo (l : TileLayer) (i : Nat) (info : TileInfo)
  /-- An answered palette lookup (R143). -/
  | colour (i : Nat) (c : RGBA)
  /-- `ticks_executed(done)` (R226). -/
  | ticksExecuted (count : Nat)
deriving DecidableEq, Repr

/-- The frame-timing state (R31 to R33). -/
structure Timing where
  vsyncTicks : Int
  vblankTicks : Int
  intAck : Bool
deriving DecidableEq, Repr

/-- The ROM arrays (R23). -/
structure Roms where
  fixed0 : Memory
  fixed1 : Memory
  fixed2 : Memory
  bank : Memory
deriving DecidableEq, Repr

/-- The outside of the block as plain data, the model's own (notes/assumptions/2.md, 4.md, 5.md): the calls waiting
(oldest first), the answers the pacing utility and the CPU engine will give, and the serial number of the next draw. -/
structure Collaborators where
  calls : List Call
  pacing : List Nat
  slices : List Slice
  draws : Nat
deriving DecidableEq, Repr

/-- The state `S` (spec/10_state.md). -/
structure State where
  /-- The configuration (R8). -/
  cfg : Config
  /-- ROM arrays (R23). -/
  rom : Roms
  /-- Decoded tile-graphics stores (R24). -/
  gfx : PerTile Gfx
  /-- The sprite graphics store, a launch input (R8, R24; notes/assumptions/16.md). -/
  gfxSpr : Image
  /-- RAM arrays (R22). -/
  workRam : Memory
  tileRam : PerTile Memory
  spriteRam : Memory
  paletteRam : Memory
  /-- The palette cache, `PALETTE_ENTRIES` colours (R25). -/
  palette : List RGBA
  /-- The bank-select register (R27); 0 after initialisation (notes/assumptions/10.md). -/
  bankIndex : Byte
  /-- The scroll windows (R28); 0 after initialisation (notes/assumptions/10.md). -/
  scroll : PerScroll Bytes3
  /-- The renderer's scroll offsets (R29); a draw until the first scroll write (notes/assumptions/12.md). -/
  scrollX : PerScroll Int
  /-- The input registers (R30); 0 after initialisation (notes/assumptions/10.md). -/
  inputs : Bytes3
  /-- The frame-timing state and the acknowledge latch (R31 to R34). -/
  timing : Timing
  /-- The last pin word returned; its bit 30 is the INT output (R35). 0 before the first bus step: DESIGN CHOICE,
  notes/assumptions/11.md. -/
  pinsOut : PinWord
  /-- The dirty flags, `HALF[L]` per layer (R36). -/
  dirty : PerTile (List Bool)
  /-- The renderers' caches `tc[L]`, `HALF[L]` entries per layer (R204); draws before the first `draw()`
  (notes/assumptions/12.md). -/
  tileCache : PerTile (List TileInfo)
  /-- The index-colour bitmap (R37). -/
  bitmap : Bitmap
  /-- The output frame (R37). -/
  frame : List (List RGBA)
  /-- The recorded model fault (R38; notes/assumptions/7.md). -/
  fault : Option Fault
  /-- The outside of the block (the model's own). -/
  env : Collaborators
  /-- What the current call has handed out so far (the model's own; `step` empties it before a call). -/
  outbox : List Output
deriving DecidableEq, Repr

/-- The contents of a supplied image. -/
def imageCells : Option Image → Memory
  | some i => i.cells
  | none => []

/-- The decoded store of a layer: `GFX_TILES[L]` tiles (R24, R271). -/
def decodedStore (l : TileLayer) (tiles : Nat) : Option Image → Gfx
  | some i => (List.range tiles).map (Config.planarTile l i)
  | none => []

/-- A rectangle of `h` rows of `w` values. -/
def tabulate {α : Type} (h w : Nat) (f : Nat → Nat → α) : List (List α) :=
  (List.range h).map fun y => (List.range w).map fun x => f y x

/-- The state after initialisation from a launch (R270, R271), with a given outside, which a re-initialisation keeps
(notes/assumptions/20.md); its draws take one serial number. -/
def State.initial (l : Launch) (env : Collaborators) (out : List Output) : State where
  cfg := l.cfg
  rom := ⟨imageCells l.images.fixed0, imageCells l.images.fixed1, imageCells l.images.fixed2, imageCells l.images.bank⟩
  gfx :=
    ⟨decodedStore .tx l.cfg.gfxTiles.tx l.images.tileRom.tx, decodedStore .fg l.cfg.gfxTiles.fg l.images.tileRom.fg,
     decodedStore .bg l.cfg.gfxTiles.bg l.images.tileRom.bg⟩
  gfxSpr := l.images.gfxSpr
  workRam := []
  tileRam := ⟨[], [], []⟩
  spriteRam := []
  paletteRam := []
  palette := (List.range paletteEntries).map (Config.drawColour env.draws)
  bankIndex := 0
  scroll := ⟨⟨0, 0, 0⟩, ⟨0, 0, 0⟩⟩
  scrollX := ⟨Config.drawScrollX env.draws .fg, Config.drawScrollX env.draws .bg⟩
  inputs := ⟨0, 0, 0⟩
  timing := ⟨l.cfg.tpf, 0, false⟩
  pinsOut := 0
  dirty :=
    ⟨List.replicate (l.cfg.half .tx) true, List.replicate (l.cfg.half .fg) true, List.replicate (l.cfg.half .bg) true⟩
  tileCache :=
    ⟨(List.range (l.cfg.half .tx)).map (Config.drawTileInfo env.draws .tx),
     (List.range (l.cfg.half .fg)).map (Config.drawTileInfo env.draws .fg),
     (List.range (l.cfg.half .bg)).map (Config.drawTileInfo env.draws .bg)⟩
  bitmap := tabulate l.cfg.bmpH l.cfg.bmpW (Config.drawPixel env.draws)
  frame := tabulate l.cfg.visH l.cfg.visW (Config.drawFramePixel env.draws)
  fault := none
  env := { env with draws := env.draws + 1 }
  outbox := out

/-- An outside with nothing waiting. -/
def Collaborators.quiet : Collaborators := ⟨[], [], [], 0⟩

/-- The machine right after reset: the launch REF with its OPEN fields and images free (R270). -/
def State.reset : State := State.initial Launch.ref Collaborators.quiet []

end Sys2Proof.Machine
end

