-- ==== Sys2Proof/Machine/Ops.lean ====
section
/-! DEFINITION. The named operations over the stores and registers (spec/10_state.md, spec/42_palette_cache.md,
spec/41_bus_dispatch.md) and the raising of a model fault (spec/00_scope.md R10). The block takes no exception: trap
entry and return are the CPU's (spec/60_exceptions.md R246, R247). -/

namespace Sys2Proof.Machine

/-- What an instruction answers. -/
abbrev Answer := Host.Outcome State Fault Refusal

/-! ### Model faults -/

/-- R10: the faulted state that `raise ModelFault(f)` leaves behind (notes/assumptions/7.md). -/
def State.afterFault (s : State) (f : Fault) : State := { s with fault := some f }

/-- R10: end the step in the fault `f`. -/
def raise (f : Fault) : Answer := .fault f

/-- R38, R100: no step is taken from a faulted state; the fault stands (notes/assumptions/7.md). -/
def running (s : State) (k : State → Answer) : Answer :=
  match s.fault with
  | some f => raise f
  | none => k s

/-- Go on from a next state. -/
def thenDo (o : Answer) (k : State → Answer) : Answer :=
  match o with
  | .next s => k s
  | .fault f => .fault f
  | .refused r => .refused r

/-! ### Stores -/

/-- The contents of a store (R22, R23). -/
def State.store (s : State) : Store → Memory
  | .rom .fixed0 => s.rom.fixed0
  | .rom .fixed1 => s.rom.fixed1
  | .rom .fixed2 => s.rom.fixed2
  | .rom .bank => s.rom.bank
  | .work => s.workRam
  | .tile l => s.tileRam.get l
  | .sprite => s.spriteRam
  | .palette => s.paletteRam

/-- One byte of a store. -/
def State.byteAt (s : State) (st : Store) (off : Nat) : Byte := (s.store st).read off

/-- `emit e` (section 6 of spec/00_scope.md): hand something to a collaborator, in program order (R228). -/
def State.emit (s : State) (o : Output) : State := { s with outbox := s.outbox ++ [o] }

/-- R104: store a byte of work RAM. -/
def State.writeWork (s : State) (off : Nat) (d : Byte) : State := { s with workRam := s.workRam.write off d }

/-- R108: store a byte of sprite RAM. -/
def State.writeSprite (s : State) (off : Nat) (d : Byte) : State := { s with spriteRam := s.spriteRam.write off d }

/-- R105 to R107, "region_stride = HALF[L]": the slot a tile-RAM offset belongs to. -/
def State.slotOf (s : State) (l : TileLayer) (off : Nat) : Nat := off % s.cfg.half l

/-- R105 to R107: store a byte of tile RAM and mark its slot dirty. -/
def State.writeTile (s : State) (l : TileLayer) (off : Nat) (d : Byte) : State :=
  { s with
    tileRam := s.tileRam.set l ((s.tileRam.get l).write off d)
    dirty := s.dirty.set l ((s.dirty.get l).set (s.slotOf l off) true)
    outbox := s.outbox ++ [.markTileDirty l (s.slotOf l off)] }

/-! ### Palette cache -/

/-- R142: the high nibble in both nibbles. -/
def dupHi (b : Byte) : Byte := (b &&& 0xF0#8) ||| ((b >>> 4) &&& 0x0F#8)

/-- R142: the low nibble in both nibbles. -/
def dupLo (b : Byte) : Byte := (b &&& 0x0F#8) ||| ((b <<< 4) &&& 0xF0#8)

/-- R142: the colour of a slot whose odd byte is `rg` and even byte is `bl`. -/
def expand (rg bl : Byte) : RGBA := ⟨dupHi rg, dupLo rg, dupLo bl, 0xFF#8⟩

/-- R141: the colour a palette-RAM write at `offset` makes of the slot's colour `c`. -/
def recolour (offset : Nat) (b : Byte) (c : RGBA) : RGBA :=
  if offset % 2 = 1 then { c with r := dupHi b, g := dupLo b, a := 0xFF#8 }
  else { c with b := dupLo b, a := 0xFF#8 }

/-- R140, D24: the colour as one 32-bit word, `a << 24 | b << 16 | g << 8 | r`, for a collaborator that needs it so. -/
def packColour (c : RGBA) : BitVec 32 :=
  (c.a.setWidth 32 <<< 24) ||| (c.b.setWidth 32 <<< 16) ||| (c.g.setWidth 32 <<< 8) ||| c.r.setWidth 32

/-- An entry of the palette table; every index a rule uses lies below its length. -/
def colourAt (palette : List RGBA) (i : Nat) : RGBA := palette.getD i ⟨0, 0, 0, 0⟩

/-- R141 PaletteUpdate on the table. -/
def paletteUpdate (palette : List RGBA) (offset : Nat) (b : Byte) : List RGBA :=
  palette.set (offset / 2) (recolour offset b (colourAt palette (offset / 2)))

/-- R109: store a byte of palette RAM and update the cache. -/
def State.writePalette (s : State) (off : Nat) (d : Byte) : State :=
  { s with paletteRam := s.paletteRam.write off d, palette := paletteUpdate s.palette off d }

/-! ### Registers -/

/-- R111, R119: the corrected scroll offset of a scroll window's bytes. -/
def scrollValue (cfg : Config) (w : Bytes3) : Int :=
  (((w.get cfg.scrollHiOff).toNat * 256 + (w.get cfg.scrollLoOff).toNat : Nat) : Int) + cfg.scrollCorrection

/-- R111, R119: store byte `k` of a scroll window and push the scroll offset. -/
def State.writeScroll (s : State) (l : ScrollLayer) (k : Nat) (d : Byte) : State :=
  { s with
    scroll := s.scroll.set l ((s.scroll.get l).set k d)
    scrollX := s.scrollX.set l (scrollValue s.cfg ((s.scroll.get l).set k d))
    outbox := s.outbox ++ [.setScrollX l (scrollValue s.cfg ((s.scroll.get l).set k d))] }

/-- R112: store the bank index. -/
def State.writeBank (s : State) (d : Byte) : State := { s with bankIndex := d >>> s.cfg.bankShift }

/-- R227: set an input register. -/
def State.setInput (s : State) (k : Nat) (v : Byte) : State := { s with inputs := s.inputs.set k v }

/-! ### Draws -/

/-- Take the serial number of the next draw. -/
def State.afterDraw (s : State) : State := { s with env := { s.env with draws := s.env.draws + 1 } }

end Sys2Proof.Machine
end

