-- ==== Sys2Proof/Machine/Flags.lean ====
section
/-! DEFINITION. The frame-timing state machine and the interrupt line, the block's only flags
(spec/44_frame_timing.md). -/

namespace Sys2Proof.Machine

/-- R180, R181 TimingAdvance on the timing state, for ticks per frame `tpf` and a vblank length `vb`. -/
def Timing.advance (tpf vb n : Nat) (t : Timing) : Timing :=
  if t.vsyncTicks - n ≤ 0 then
    { vsyncTicks := t.vsyncTicks - n + tpf, vblankTicks := vb, intAck := false }
  else if t.vblankTicks > 0 then
    { t with
      vsyncTicks := t.vsyncTicks - n
      vblankTicks := if t.vblankTicks - n ≤ 0 then 0 else t.vblankTicks - n }
  else { t with vsyncTicks := t.vsyncTicks - n }

/-- R180: the timing advance of a bus step. -/
def State.advance (s : State) (n : Nat) : State :=
  { s with timing := s.timing.advance s.cfg.tpf s.cfg.vblankTicks n }

/-- R182 IntLine. -/
def Timing.intLine (t : Timing) : Bool := decide (t.vblankTicks > 0) && !t.intAck

/-- R34: the timing state is VBLANK. -/
def Timing.inVblank (t : Timing) : Bool := decide (t.vblankTicks > 0)

/-- R117: the acknowledge latch is set. -/
def State.setAck (s : State) : State := { s with timing := { s.timing with intAck := true } }

end Sys2Proof.Machine
end

