-- ==== Sys2Proof/Machine/Operands.lean ====
section
/-! DEFINITION. What a read puts on the data lines, the offsets of a write, and the pins a bus step returns
(spec/41_bus_dispatch.md R100, R103, R114, R115, R125, spec/43_tile_metadata.md R160). -/

namespace Sys2Proof.Machine

/-- The address lines as a natural number (R84). -/
def busAddr (b : BusOperands) : Nat := b.addr.toNat

/-- R103: the byte of the region the address lies in. -/
def State.readGeneric (s : State) (a : Nat) : Byte :=
  match s.cfg.genericTarget a with
  | some (st, off) => s.byteAt st off
  | none => 0

/-- R114: the selected bank lies wholly inside bank storage. -/
def State.bankInRange (s : State) : Bool :=
  decide ((s.bankIndex.toNat + 1) * s.cfg.bankWindow.size ≤ s.cfg.bankStorageSize)

/-- R114: the byte of bank storage a window address reaches. -/
def State.readBank (s : State) (a : Nat) : Byte :=
  s.byteAt (.rom .bank) (a - s.cfg.bankWindow.start + s.bankIndex.toNat * s.cfg.bankWindow.size)

/-- R115: what an input port returns. -/
def State.readPort (s : State) (a : Nat) : Byte :=
  match s.cfg.inputPort a with
  | some (.reg k) => s.inputs.get k.val
  | some (.const c) => c
  | some .zero => 0
  | none => 0

/-- R160 TileInfo. -/
def State.tileInfo (s : State) (l : TileLayer) (i : Nat) : TileInfo :=
  let lo := (s.byteAt (.tile l) i).toNat
  let attr := (s.byteAt (.tile l) (i + s.cfg.half l)).toNat
  { code := ((attr &&& (2 ^ s.cfg.codeBits.get l - 1)) <<< 8) ||| lo, color := attr >>> 4 }

/-- The pin word of a bus step with new data lines and the INT line of the timing state (R100, R125). -/
def pinsBack (c : Ctl) (b : BusOperands) (d : Byte) (t : Timing) : PinWord :=
  pack c { b with data := d, p30 := t.intLine }

/-- The end of R100: INT is recomputed and `P'` is returned with data lines `d`. -/
def State.busReturn (s : State) (c : Ctl) (b : BusOperands) (d : Byte) : State :=
  { s with
    pinsOut := pinsBack c b d s.timing
    outbox := s.outbox ++ [.pins (pinsBack c b d s.timing)] }

/-- A bus step whose decoded operation cannot fault (R100): advance the timing, put `d` on the data lines, do `op`,
return the pins. `d` and `op` see the state after the advance. -/
def busCycle (c : Ctl) (b : BusOperands) (d : State → Byte) (op : State → State) (s : State) : Answer :=
  running s fun s =>
    let u := s.advance b.ticks
    .next ((op u).busReturn c b (d u))

/-- A write or idle cycle returns the data lines as they were (R125). -/
def sameData (b : BusOperands) (_ : State) : Byte := b.data

/-- A cycle with no operation: `skip`. -/
def skip (s : State) : State := s

end Sys2Proof.Machine
end

