-- ==== Sys2Proof/Machine/Cycles.lean ====
section
/-! DEFINITION. IO cycles, idle cycles and the illegal pin words (spec/41_bus_dispatch.md section 5). -/

namespace Sys2Proof.Machine

/-- INTA (R117): set the latch; the data lines hold a free byte (D15, I3). -/
def execInta (wr rd : Bool) (b : BusOperands) (s : State) : Answer :=
  busCycle (.inta wr rd) b (fun u => Config.drawByte u.env.draws) (fun u => u.setAck.afterDraw) s

/-- IO.RD (R120): 0 for every port. -/
def execIoRd (b : BusOperands) (s : State) : Answer := busCycle .ioRd b (fun _ => 0) skip s

/-- IO.WR (R121). -/
def execIoWr (b : BusOperands) (s : State) : Answer := busCycle .ioWr b (sameData b) skip s

/-- IO.IDLE (R126). -/
def execIoIdle (b : BusOperands) (s : State) : Answer := busCycle .ioIdle b (sameData b) skip s

/-- MEM.IDLE (R122). -/
def execMemIdle (m1 : Bool) (b : BusOperands) (s : State) : Answer := busCycle (.memIdle m1) b (sameData b) skip s

/-- NONE (R123). -/
def execNoRequest (wr rd m1 : Bool) (b : BusOperands) (s : State) : Answer :=
  busCycle (.noRequest wr rd m1) b (sameData b) skip s

/-- An illegal pin word raises `IllegalPins`, recording `P` (R124, R241). -/
def illegalCycle (c : Ctl) (b : BusOperands) (s : State) : Answer := running s fun _ => raise (.illegalPins (pack c b))

/-- ILLEGAL.RDWR (R124). -/
def execIllegalRdwr (iorq mreq m1 : Bool) (b : BusOperands) (s : State) : Answer :=
  illegalCycle (.illegalRdwr iorq mreq m1) b s

/-- ILLEGAL.MEMIO (R124). -/
def execIllegalMemio (wr rd m1 : Bool) (b : BusOperands) (s : State) : Answer :=
  illegalCycle (.illegalMemio wr rd m1) b s

/-- ILLEGAL.M1WR (R124). -/
def execIllegalM1wr (b : BusOperands) (s : State) : Answer := illegalCycle .illegalM1wr b s

end Sys2Proof.Machine
end

