-- ==== Sys2Proof/Machine/MemRead.lean ====
section
/-! DEFINITION. The memory reads (spec/41_bus_dispatch.md section 3). -/

namespace Sys2Proof.Machine

/-- MEM.RD.GENERIC (R103). -/
def execMemRdGeneric (m1 : Bool) (b : BusOperands) (s : State) : Answer :=
  busCycle (.memRd m1) b (fun u => u.readGeneric (busAddr b)) skip s

/-- MEM.RD.BANKWIN (R114). -/
def execMemRdBankwin (m1 : Bool) (b : BusOperands) (s : State) : Answer :=
  running s fun s =>
    if s.bankInRange then busCycle (.memRd m1) b (fun u => u.readBank (busAddr b)) skip s
    else raise (.bankOutOfRange b.addr s.bankIndex)

/-- MEM.RD.INPUT (R115). -/
def execMemRdInput (m1 : Bool) (b : BusOperands) (s : State) : Answer :=
  busCycle (.memRd m1) b (fun u => u.readPort (busAddr b)) skip s

/-- MEM.RD.UNMAPPED (R116): the sentinel 0. -/
def execMemRdUnmapped (m1 : Bool) (b : BusOperands) (s : State) : Answer :=
  busCycle (.memRd m1) b (fun _ => 0) skip s

end Sys2Proof.Machine
end

