-- ==== Sys2Proof/Machine/MemWrite.lean ====
section
/-! DEFINITION. The memory writes (spec/41_bus_dispatch.md section 4). Offsets are taken after the decode has
established `start <= A` (spec/00_scope.md R11). -/

namespace Sys2Proof.Machine

/-- MEM.WR.WORKRAM (R104). -/
def execMemWrWorkram (b : BusOperands) (s : State) : Answer :=
  busCycle .memWr b (sameData b) (fun u => u.writeWork (busAddr b - u.cfg.workRam.start) b.data) s

/-- MEM.WR.TXRAM (R105). -/
def execMemWrTxram (b : BusOperands) (s : State) : Answer :=
  busCycle .memWr b (sameData b) (fun u => u.writeTile .tx (busAddr b - u.cfg.tileRam.tx.start) b.data) s

/-- MEM.WR.FGRAM (R106). -/
def execMemWrFgram (b : BusOperands) (s : State) : Answer :=
  busCycle .memWr b (sameData b) (fun u => u.writeTile .fg (busAddr b - u.cfg.tileRam.fg.start) b.data) s

/-- MEM.WR.BGRAM (R107). -/
def execMemWrBgram (b : BusOperands) (s : State) : Answer :=
  busCycle .memWr b (sameData b) (fun u => u.writeTile .bg (busAddr b - u.cfg.tileRam.bg.start) b.data) s

/-- MEM.WR.SPRRAM (R108). -/
def execMemWrSprram (b : BusOperands) (s : State) : Answer :=
  busCycle .memWr b (sameData b) (fun u => u.writeSprite (busAddr b - u.cfg.spriteRam.start) b.data) s

/-- MEM.WR.PALRAM (R109); the offset passed is the byte offset, "not yet halved". -/
def execMemWrPalram (b : BusOperands) (s : State) : Answer :=
  busCycle .memWr b (sameData b) (fun u => u.writePalette (busAddr b - u.cfg.paletteRam.start) b.data) s

/-- MEM.WR.ROM (R110): dropped. -/
def execMemWrRom (b : BusOperands) (s : State) : Answer := busCycle .memWr b (sameData b) skip s

/-- MEM.WR.SCROLLFG (R111). -/
def execMemWrScrollfg (b : BusOperands) (s : State) : Answer :=
  busCycle .memWr b (sameData b) (fun u => u.writeScroll .fg (busAddr b - u.cfg.scrollWin.fg) b.data) s

/-- MEM.WR.SCROLLBG (R119). -/
def execMemWrScrollbg (b : BusOperands) (s : State) : Answer :=
  busCycle .memWr b (sameData b) (fun u => u.writeScroll .bg (busAddr b - u.cfg.scrollWin.bg) b.data) s

/-- MEM.WR.BANKSEL (R112). -/
def execMemWrBanksel (b : BusOperands) (s : State) : Answer :=
  busCycle .memWr b (sameData b) (fun u => u.writeBank b.data) s

/-- MEM.WR.BANKWIN (R118): read-only. -/
def execMemWrBankwin (b : BusOperands) (s : State) : Answer := busCycle .memWr b (sameData b) skip s

/-- MEM.WR.UNMAPPED (R113): dropped, input ports included. -/
def execMemWrUnmapped (b : BusOperands) (s : State) : Answer := busCycle .memWr b (sameData b) skip s

end Sys2Proof.Machine
end

