-- ==== Sys2Proof/Machine/BusStep.lean ====
section
/-! DEFINITION. HOST.BUS_STEP: the step of the dispatcher (spec/41_bus_dispatch.md R100 to R102). -/

namespace Sys2Proof.Machine

/-- R101 MemRead. -/
def memRead (m1 : Bool) (b : BusOperands) (s : State) : Answer :=
  match s.cfg.readTarget b.addr.toNat with
  | .generic => execMemRdGeneric m1 b s
  | .bankwin => execMemRdBankwin m1 b s
  | .input => execMemRdInput m1 b s
  | .unmapped => execMemRdUnmapped m1 b s

/-- R102 MemWrite. -/
def memWrite (b : BusOperands) (s : State) : Answer :=
  match s.cfg.writeTarget b.addr.toNat with
  | .workram => execMemWrWorkram b s
  | .txram => execMemWrTxram b s
  | .fgram => execMemWrFgram b s
  | .bgram => execMemWrBgram b s
  | .sprram => execMemWrSprram b s
  | .palram => execMemWrPalram b s
  | .rom => execMemWrRom b s
  | .scrollfg => execMemWrScrollfg b s
  | .scrollbg => execMemWrScrollbg b s
  | .banksel => execMemWrBanksel b s
  | .bankwin => execMemWrBankwin b s
  | .unmapped => execMemWrUnmapped b s

/-- R100 BusStep: classify the pins and do the row's cycle. -/
def busStep (p : PinWord) (n : Nat) (s : State) : Answer :=
  let c := Ctl.ofPins p
  let b := BusOperands.ofPins p n
  match classify c with
  | .illegalRdwr => execIllegalRdwr c.iorq c.mreq c.m1 b s
  | .illegalMemio => execIllegalMemio c.wr c.rd c.m1 b s
  | .inta => execInta c.wr c.rd b s
  | .ioRead => execIoRd b s
  | .ioWrite => execIoWr b s
  | .ioIdle => execIoIdle b s
  | .illegalM1wr => execIllegalM1wr b s
  | .memRead => memRead c.m1 b s
  | .memWrite => memWrite b s
  | .memIdle => execMemIdle c.m1 b s
  | .noRequest => execNoRequest c.wr c.rd c.m1 b s

/-- HOST.BUS_STEP (R100). -/
def execHostBusStep (pins : PinWord) (ticks : Nat) (s : State) : Answer := busStep pins ticks s

end Sys2Proof.Machine
end

