-- ==== Sys2Proof/Machine/Compositor.lean ====
section
/-! DEFINITION. HOST.DRAW: the frame compositor (spec/45_compositor.md). -/

namespace Sys2Proof.Machine

/-- `bitmap[y][x]`; every pixel a rule uses lies inside the bitmap. -/
def pixelAt (m : Bitmap) (y x : Nat) : Nat := (m.getD y []).getD x 0

/-- R201 ClearFrame. -/
def State.clearFrame (s : State) : State :=
  { s with frame := tabulate s.cfg.visH s.cfg.visW fun _ _ => ⟨0, 0, 0, 0⟩ }

/-- R202 FillBitmap. -/
def State.fillBitmap (s : State) : State :=
  { s with bitmap := tabulate s.cfg.bmpH s.cfg.bmpW fun _ _ => s.cfg.bgConst }

/-- R204: `sx`, the scroll offset the rasterizer of a layer receives; TX takes none. -/
def State.scrollArg (s : State) : TileLayer → Option Int
  | .tx => none
  | .fg => some s.scrollX.fg
  | .bg => some s.scrollX.bg

/-- The slots of a layer marked dirty, in rising order. -/
def State.dirtySlots (s : State) (l : TileLayer) : List Nat :=
  (List.range (s.cfg.half l)).filter fun i => (s.dirty.get l).getD i false

/-- R204: one cache entry after the dirty slots are decoded again. -/
def State.cacheEntry (s : State) (l : TileLayer) (i : Nat) : TileInfo :=
  if (s.dirty.get l).getD i false then s.tileInfo l i else (s.tileCache.get l).getD i ⟨0, 0⟩

/-- R204: `tile_info` is called for the dirty slots alone, and their flags are cleared. -/
def State.decodeDirty (s : State) (l : TileLayer) : State :=
  { s with
    tileCache := s.tileCache.set l ((List.range (s.cfg.half l)).map (s.cacheEntry l))
    dirty := s.dirty.set l (List.replicate (s.cfg.half l) false)
    outbox := s.outbox ++ (s.dirtySlots l).map fun i => .tileInfo l i (s.tileInfo l i) }

/-- R204: the pixel `RASTER[L]` leaves. -/
def State.tilePixel (s : State) (l : TileLayer) (y x : Nat) : Nat :=
  match s.cfg.raster.ofTile l with
  | .external id =>
    Config.tileRaster id l s.bitmap (s.tileCache.get l) (s.scrollArg l) (s.gfx.get l) (s.cfg.palBase.ofTile l)
      (s.cfg.prio.ofTile l) y x
  | .keep => pixelAt s.bitmap y x
  | .rows => y

/-- R204: paint a tile layer. -/
def State.paintTiles (s : State) (l : TileLayer) : State :=
  { s with bitmap := tabulate s.cfg.bmpH s.cfg.bmpW (s.tilePixel l) }

/-- R204 RenderTileLayer. -/
def State.renderTileLayer (s : State) (l : TileLayer) : State := (s.decodeDirty l).paintTiles l

/-- R205: the pixel `RASTER[SPR]` leaves. -/
def State.spritePixel (s : State) (y x : Nat) : Nat :=
  match s.cfg.raster.spr with
  | .external id => Config.spriteRaster id s.bitmap s.spriteRam s.gfxSpr s.cfg.palBase.spr s.cfg.prio.spr y x
  | .keep => pixelAt s.bitmap y x
  | .rows => y

/-- R205 RenderSprites. -/
def State.renderSprites (s : State) : State :=
  { s with bitmap := tabulate s.cfg.bmpH s.cfg.bmpW s.spritePixel }

/-- R200: everything `draw()` does before the resolution; BG, FG, TX, sprites in this order (R203). -/
def State.compose (s : State) : State :=
  ((((s.clearFrame.fillBitmap.renderTileLayer .bg).renderTileLayer .fg).renderTileLayer .tx).renderSprites)

/-- R208: the palette index of visible pixel (x, y). -/
def State.visiblePixel (s : State) (y x : Nat) : Nat := pixelAt s.bitmap (y + s.cfg.overscanRows) x

/-- R208: the visible pixels, top to bottom and left to right. -/
def visiblePixels (cfg : Config) : List (Nat × Nat) :=
  (List.range cfg.visH).flatMap fun y => (List.range cfg.visW).map fun x => (y, x)

/-- R208: a pixel whose index has no colour. -/
def State.noColour (s : State) (p : Nat × Nat) : Bool := decide (paletteEntries ≤ s.visiblePixel p.1 p.2)

/-- R208 Resolve; the first pixel without a colour faults. -/
def resolve (s : State) : Answer :=
  match (visiblePixels s.cfg).find? s.noColour with
  | some p => raise (.paletteIndexOutOfRange (s.visiblePixel p.1 p.2) (some (p.2, p.1)))
  | none => .next { s with frame := tabulate s.cfg.visH s.cfg.visW fun y x => colourAt s.palette (s.visiblePixel y x) }

/-- R200 `draw()`. -/
def draw (s : State) : Answer := resolve s.compose

/-- HOST.DRAW (R200). -/
def execHostDraw (s : State) : Answer := running s draw

end Sys2Proof.Machine
end

