-- ==== Sys2Proof/Machine/Driver.lean ====
section
/-! DEFINITION. HOST.RUN_FRAME: the execution driver (spec/46_driver_host.md R220 to R226). The pacing utility and the
CPU engine are external: their answers are data in `State.env`, and free values once that data runs out
(notes/assumptions/5.md). -/

namespace Sys2Proof.Machine

/-- R226: what `ticks_to_run(t)` answers. -/
def State.ticksToRun (s : State) (t : Nat) : Nat :=
  match s.env.pacing with
  | n :: _ => n
  | [] => Config.drawTicks s.env.draws t

/-- R226: the outside after that answer. -/
def State.afterPacing (s : State) : State :=
  match s.env.pacing with
  | _ :: rest => { s with env := { s.env with pacing := rest } }
  | [] => s.afterDraw

/-- R221: the bus steps of the slice `cpu_exec(b)` performs. -/
def State.nextSlice (s : State) (budget : Nat) : Slice :=
  match s.env.slices with
  | c :: _ => c
  | [] => Config.drawSlice s.env.draws budget

/-- R221: the outside after that slice is chosen. -/
def State.afterSlice (s : State) : State :=
  match s.env.slices with
  | _ :: rest => { s with env := { s.env with slices := rest } }
  | [] => s.afterDraw

/-- R221: `k = n_1 + ... + n_m`. -/
def sliceTicks (c : Slice) : Nat := (c.map Prod.snd).sum

/-- R221: the bus steps of a slice, in order; a fault of one stops the slice. -/
def runSlice : Slice → State → Answer
  | [], s => .next s
  | (p, n) :: rest, s => thenDo (busStep p n s) (runSlice rest)

/-- R220, the end of `run_frame`: report the ticks and draw once. -/
def finishFrame (done : Nat) (s : State) : Answer := draw (s.emit (.ticksExecuted done))

/-- R220, the loop, with `left = target - done` ticks to go. A slice of 0 ticks would never end it (I13). `fuel` is
at least `left`, and every slice takes at least one tick off it. -/
def runSlices : Nat → Nat → Nat → State → Answer
  | _, 0, done, s => finishFrame done s
  | 0, _ + 1, _, _ => raise .engineStalled
  | fuel + 1, left + 1, done, s =>
    let c := s.nextSlice (left + 1)
    thenDo (runSlice c s.afterSlice) fun u =>
      if sliceTicks c = 0 then raise .engineStalled
      else runSlices fuel (left + 1 - sliceTicks c) (done + sliceTicks c) u

/-- R220 `run_frame(t)`. -/
def runFrame (t : Nat) (s : State) : Answer := runSlices (s.ticksToRun t) (s.ticksToRun t) 0 s.afterPacing

/-- HOST.RUN_FRAME (R220). -/
def execHostRunFrame (t : Nat) (s : State) : Answer := running s (runFrame t)

end Sys2Proof.Machine
end

