-- ==== Sys2Proof/Machine/HostCalls.lean ====
section
/-! DEFINITION. The host calls that are no frame: initialisation, tile and palette queries, input
(spec/70_reset_and_hazards.md R271, spec/43_tile_metadata.md, spec/42_palette_cache.md R143, spec/46_driver_host.md
R227). -/

namespace Sys2Proof.Machine

/-- HOST.RESET (R271, R272): full re-initialisation, from a faulted state too. -/
def execHostReset (launch : Launch) (s : State) : Answer :=
  if launchOk launch then .next (State.initial launch s.env s.outbox) else .refused .launchRefused

/-- R161 to R163: answer `tile_info(i)` of a layer. -/
def answerTileInfo (l : TileLayer) (i : Nat) (s : State) : Answer :=
  running s fun s =>
    if s.cfg.half l ≤ i then raise (.slotOutOfRange l i) else .next (s.emit (.tileInfo l i (s.tileInfo l i)))

/-- HOST.TILE_INFO.TX (R161). -/
def execHostTileInfoTx (i : Nat) (s : State) : Answer := answerTileInfo .tx i s

/-- HOST.TILE_INFO.FG (R162). -/
def execHostTileInfoFg (i : Nat) (s : State) : Answer := answerTileInfo .fg i s

/-- HOST.TILE_INFO.BG (R163). -/
def execHostTileInfoBg (i : Nat) (s : State) : Answer := answerTileInfo .bg i s

/-- HOST.PAL_LOOKUP (R143). -/
def execHostPalLookup (i : Nat) (s : State) : Answer :=
  running s fun s =>
    if paletteEntries ≤ i then raise (.paletteIndexOutOfRange i none)
    else .next (s.emit (.colour i (colourAt s.palette i)))

/-- HOST.INPUT_SET (R227). -/
def execHostInputSet (k : Fin 3) (v : Byte) (s : State) : Answer := running s fun s => .next (s.setInput k.val v)

end Sys2Proof.Machine
end

