-- ==== Sys2Proof/Machine/Dispatch.lean ====
section
/-! DEFINITION. One arm per constructor of Instr: each instruction's meaning. -/

namespace Sys2Proof.Machine

/-- The meaning of an instruction. -/
def exec (i : Instr) (s : State) : Host.Outcome State Fault Refusal :=
  match i with
  | .illegalRdwr iorq mreq m1 b => Sys2Proof.Machine.execIllegalRdwr iorq mreq m1 b s
  | .illegalMemio wr rd m1 b => Sys2Proof.Machine.execIllegalMemio wr rd m1 b s
  | .inta wr rd b => Sys2Proof.Machine.execInta wr rd b s
  | .ioRd b => Sys2Proof.Machine.execIoRd b s
  | .ioWr b => Sys2Proof.Machine.execIoWr b s
  | .ioIdle b => Sys2Proof.Machine.execIoIdle b s
  | .illegalM1wr b => Sys2Proof.Machine.execIllegalM1wr b s
  | .memRdGeneric m1 b => Sys2Proof.Machine.execMemRdGeneric m1 b s
  | .memRdBankwin m1 b => Sys2Proof.Machine.execMemRdBankwin m1 b s
  | .memRdInput m1 b => Sys2Proof.Machine.execMemRdInput m1 b s
  | .memRdUnmapped m1 b => Sys2Proof.Machine.execMemRdUnmapped m1 b s
  | .memWrWorkram b => Sys2Proof.Machine.execMemWrWorkram b s
  | .memWrTxram b => Sys2Proof.Machine.execMemWrTxram b s
  | .memWrFgram b => Sys2Proof.Machine.execMemWrFgram b s
  | .memWrBgram b => Sys2Proof.Machine.execMemWrBgram b s
  | .memWrSprram b => Sys2Proof.Machine.execMemWrSprram b s
  | .memWrPalram b => Sys2Proof.Machine.execMemWrPalram b s
  | .memWrRom b => Sys2Proof.Machine.execMemWrRom b s
  | .memWrScrollfg b => Sys2Proof.Machine.execMemWrScrollfg b s
  | .memWrScrollbg b => Sys2Proof.Machine.execMemWrScrollbg b s
  | .memWrBanksel b => Sys2Proof.Machine.execMemWrBanksel b s
  | .memWrBankwin b => Sys2Proof.Machine.execMemWrBankwin b s
  | .memWrUnmapped b => Sys2Proof.Machine.execMemWrUnmapped b s
  | .memIdle m1 b => Sys2Proof.Machine.execMemIdle m1 b s
  | .noRequest wr rd m1 b => Sys2Proof.Machine.execNoRequest wr rd m1 b s
  | .hostReset launch => Sys2Proof.Machine.execHostReset launch s
  | .hostBusStep pins ticks => Sys2Proof.Machine.execHostBusStep pins ticks s
  | .hostTileInfoTx slot => Sys2Proof.Machine.execHostTileInfoTx slot s
  | .hostTileInfoFg slot => Sys2Proof.Machine.execHostTileInfoFg slot s
  | .hostTileInfoBg slot => Sys2Proof.Machine.execHostTileInfoBg slot s
  | .hostPalLookup index => Sys2Proof.Machine.execHostPalLookup index s
  | .hostDraw => Sys2Proof.Machine.execHostDraw s
  | .hostRunFrame t => Sys2Proof.Machine.execHostRunFrame t s
  | .hostInputSet k v => Sys2Proof.Machine.execHostInputSet k v s

end Sys2Proof.Machine
end

