-- ==== Sys2Proof/Machine/Fetch.lean ====
section
/-! DEFINITION. Where the next instruction comes from: the block has no program counter, its sequencing is the order of
the calls its collaborators make (spec/10_state.md R21, spec/00_scope.md R7). -/

namespace Sys2Proof.Machine

/-- Begin a call: it leaves the queue, and nothing has been handed out yet. -/
def State.beginCall (s : State) (rest : List Call) : State :=
  { s with env := { s.env with calls := rest }, outbox := [] }

/-- Put a call in front of the waiting ones. -/
def State.withCall (s : State) (c : Call) : State := { s with env := { s.env with calls := c :: s.env.calls } }

/-- R87: a reserved selector is refused; in a faulted state no step is taken (R38). -/
def refuseCall (e : DecodeError) (s : State) : Answer :=
  running s fun _ =>
    match e with
    | .reservedHostOp h => .refused (.reservedHostOp h)

/-- R7: "The block itself never initiates anything": with no call waiting nothing changes. -/
def idle (s : State) : Answer := .next s

end Sys2Proof.Machine
end

