-- ==== Sys2Proof/Machine/Step.lean ====
section
/-! DEFINITION. One step: the oldest waiting call is decoded under the configuration in force and carried out. -/

namespace Sys2Proof.Machine

/-- One step of the block. -/
def step (s : State) : Host.Outcome State Fault Refusal :=
  match s.env.calls with
  | [] => idle s
  | c :: rest =>
    match decode s.cfg c with
    | .ok i => exec i (s.beginCall rest)
    | .error e => refuseCall e (s.beginCall rest)

/-- `s` with an opcode-table word as the next call (notes/assumptions/4.md). -/
def State.withFetchWord (s : State) (nbits w : Nat) : State :=
  match tableCall nbits w with
  | some c => s.withCall c
  | none => s

end Sys2Proof.Machine
end

