-- ==== Sys2Proof/Safety.lean ====
section
/-! DEFINITION. What counts as a legal state and a safe run of the block. -/

namespace Sys2Proof.Machine

/-- The configured size of a store (R8). -/
def storeSize (cfg : Config) : Store → Nat
  | .rom .fixed0 => cfg.rom0.size
  | .rom .fixed1 => cfg.rom1.size
  | .rom .fixed2 => cfg.rom2.size
  | .rom .bank => cfg.bankStorageSize
  | .work => cfg.workRam.size
  | .tile l => (cfg.tileRam.get l).size
  | .sprite => cfg.spriteRam.size
  | .palette => cfg.paletteRam.size

/-- A rectangle of `h` rows of `w` values. -/
def HasShape {α : Type} (h w : Nat) (m : List (List α)) : Prop := m.length = h ∧ ∀ row ∈ m, row.length = w

/-- The invariant of the block: the configuration is well formed (R9), every store is canonical and keeps to its size
(R22, R23), the tables have their lengths (R24, R25, R36, R37), the counters keep their bounds (R31, R32), and a slot
that is not dirty has its current `TileInfo` in the renderer's cache (R165). -/
structure State.Inv (s : State) : Prop where
  cfgOk : configOk s.cfg = true
  canonical : ∀ st, (s.store st).wf = true
  within : ∀ st, (s.store st).within (storeSize s.cfg st) = true
  paletteLength : s.palette.length = paletteEntries
  gfxLength : ∀ l, (s.gfx.get l).length = s.cfg.gfxTiles.get l
  dirtyLength : ∀ l, (s.dirty.get l).length = s.cfg.half l
  cacheLength : ∀ l, (s.tileCache.get l).length = s.cfg.half l
  bitmapShape : HasShape s.cfg.bmpH s.cfg.bmpW s.bitmap
  frameShape : HasShape s.cfg.visH s.cfg.visW s.frame
  vsyncBound : s.timing.vsyncTicks ≤ s.cfg.tpf
  vblankBound : 0 ≤ s.timing.vblankTicks
  cacheCurrent : ∀ l i, i < s.cfg.half l → (s.dirty.get l).getD i false = false →
    (s.tileCache.get l).getD i ⟨0, 0⟩ = s.tileInfo l i

/-- A run of `n` steps is safe when it neither faults nor is refused. -/
def SafeRun (n : Nat) (s : State) : Prop := ∃ t, Host.Core.run Sys2Proof.core n s = .next t

end Sys2Proof.Machine
end

