-- ==== Sys2Proof/WellFormed.lean ====
section
/-! DEFINITION. Which instructions are well formed under a configuration: the "addr" column of
spec/opcode_table.json, and the pin bits a row leaves free (spec/30_encoding.md R82). -/

namespace Sys2Proof

/-- `A` lies in a CPU-visible fixed ROM or in one of the six RAM regions (row MEM.RD.GENERIC). -/
def Config.isGeneric (cfg : Config) (a : Nat) : Bool :=
  cfg.rom0.contains a || cfg.rom1.contains a || cfg.rom2.contains a || cfg.workRam.contains a
    || cfg.tileRam.tx.contains a || cfg.tileRam.fg.contains a || cfg.tileRam.bg.contains a
    || cfg.spriteRam.contains a || cfg.paletteRam.contains a

def Config.isScroll (cfg : Config) (a : Nat) : Bool :=
  (cfg.scrollRegion .fg).contains a || (cfg.scrollRegion .bg).contains a

/-- The decode entries of R102 that stand before the fixed ROMs. -/
def Config.isRam (cfg : Config) (a : Nat) : Bool :=
  cfg.workRam.contains a || cfg.tileRam.tx.contains a || cfg.tileRam.fg.contains a || cfg.tileRam.bg.contains a
    || cfg.spriteRam.contains a || cfg.paletteRam.contains a

/-- Rows 2, 3 and 11 of R82 stand below row 1, so their free RD and WR are not both 1. -/
def notBoth (wr rd : Bool) : Bool := !(wr && rd)

/-- The check: each row's address range, with the entries of a higher priority taken out (R101, R102). -/
def Instr.wf (cfg : Config) : Instr → Bool
  | .illegalRdwr _ _ _ _ => true
  | .illegalMemio wr rd _ _ => notBoth wr rd
  | .inta wr rd _ => notBoth wr rd
  | .ioRd _ => true
  | .ioWr _ => true
  | .ioIdle _ => true
  | .illegalM1wr _ => true
  | .memRdGeneric _ b => cfg.isGeneric b.addr.toNat
  | .memRdBankwin _ b => !cfg.isGeneric b.addr.toNat && cfg.bankWindow.contains b.addr.toNat
  | .memRdInput _ b =>
    !cfg.isGeneric b.addr.toNat && !cfg.bankWindow.contains b.addr.toNat && (cfg.inputPort b.addr.toNat).isSome
  | .memRdUnmapped _ b =>
    !cfg.isGeneric b.addr.toNat && !cfg.bankWindow.contains b.addr.toNat && !(cfg.inputPort b.addr.toNat).isSome
  | .memWrWorkram b => cfg.workRam.contains b.addr.toNat
  | .memWrTxram b => !cfg.workRam.contains b.addr.toNat && cfg.tileRam.tx.contains b.addr.toNat
  | .memWrFgram b =>
    !cfg.workRam.contains b.addr.toNat && !cfg.tileRam.tx.contains b.addr.toNat
      && cfg.tileRam.fg.contains b.addr.toNat
  | .memWrBgram b =>
    !cfg.workRam.contains b.addr.toNat && !cfg.tileRam.tx.contains b.addr.toNat
      && !cfg.tileRam.fg.contains b.addr.toNat && cfg.tileRam.bg.contains b.addr.toNat
  | .memWrSprram b =>
    !cfg.workRam.contains b.addr.toNat && !cfg.tileRam.tx.contains b.addr.toNat
      && !cfg.tileRam.fg.contains b.addr.toNat && !cfg.tileRam.bg.contains b.addr.toNat
      && cfg.spriteRam.contains b.addr.toNat
  | .memWrPalram b =>
    !cfg.workRam.contains b.addr.toNat && !cfg.tileRam.tx.contains b.addr.toNat
      && !cfg.tileRam.fg.contains b.addr.toNat && !cfg.tileRam.bg.contains b.addr.toNat
      && !cfg.spriteRam.contains b.addr.toNat && cfg.paletteRam.contains b.addr.toNat
  | .memWrRom b => !cfg.isRam b.addr.toNat && cfg.isGeneric b.addr.toNat
  | .memWrScrollfg b => !cfg.isGeneric b.addr.toNat && (cfg.scrollRegion .fg).contains b.addr.toNat
  | .memWrScrollbg b =>
    !cfg.isGeneric b.addr.toNat && !(cfg.scrollRegion .fg).contains b.addr.toNat
      && (cfg.scrollRegion .bg).contains b.addr.toNat
  | .memWrBanksel b =>
    !cfg.isGeneric b.addr.toNat && !cfg.isScroll b.addr.toNat && decide (b.addr.toNat = cfg.bankselAddr)
  | .memWrBankwin b =>
    !cfg.isGeneric b.addr.toNat && !cfg.isScroll b.addr.toNat && !decide (b.addr.toNat = cfg.bankselAddr)
      && cfg.bankWindow.contains b.addr.toNat
  | .memWrUnmapped b =>
    !cfg.isGeneric b.addr.toNat && !cfg.isScroll b.addr.toNat && !decide (b.addr.toNat = cfg.bankselAddr)
      && !cfg.bankWindow.contains b.addr.toNat
  | .memIdle _ _ => true
  | .noRequest wr rd _ _ => notBoth wr rd
  | .hostReset _ => true
  | .hostBusStep _ _ => true
  | .hostTileInfoTx _ => true
  | .hostTileInfoFg _ => true
  | .hostTileInfoBg _ => true
  | .hostPalLookup _ => true
  | .hostDraw => true
  | .hostRunFrame _ => true
  | .hostInputSet _ _ => true

end Sys2Proof
end

