-- ==== Sys2Proof/Certificates/Slice0/Obligations.lean ====
section
/-! DEFINITION. The statements for the provers, and the words they are written in. -/

namespace Sys2Proof.Spec

open Sys2Proof.Machine

/-! ### The words of the statements -/

/-- The parts of the state beside the byte stores. -/
inductive Part where
  | cfg | gfx | gfxSpr | palette | bankIndex | scroll | scrollX | inputs | timing | pinsOut | dirty | tileCache
  | bitmap | frame | fault | calls | pacing | slices | draws | outbox
deriving DecidableEq, Repr

def Same (s t : State) : Part → Prop
  | .cfg => t.cfg = s.cfg
  | .gfx => t.gfx = s.gfx
  | .gfxSpr => t.gfxSpr = s.gfxSpr
  | .palette => t.palette = s.palette
  | .bankIndex => t.bankIndex = s.bankIndex
  | .scroll => t.scroll = s.scroll
  | .scrollX => t.scrollX = s.scrollX
  | .inputs => t.inputs = s.inputs
  | .timing => t.timing = s.timing
  | .pinsOut => t.pinsOut = s.pinsOut
  | .dirty => t.dirty = s.dirty
  | .tileCache => t.tileCache = s.tileCache
  | .bitmap => t.bitmap = s.bitmap
  | .frame => t.frame = s.frame
  | .fault => t.fault = s.fault
  | .calls => t.env.calls = s.env.calls
  | .pacing => t.env.pacing = s.env.pacing
  | .slices => t.env.slices = s.env.slices
  | .draws => t.env.draws = s.env.draws
  | .outbox => t.outbox = s.outbox

/-- Every part but the named ones is unchanged. -/
def Unchanged (named : List Part) (s t : State) : Prop := ∀ p, p ∉ named → Same s t p

/-- Every byte of every store is unchanged. -/
def SameStores (s t : State) : Prop := ∀ st off, t.byteAt st off = s.byteAt st off

/-- Every byte of every store is unchanged but the byte of `st` at `off`, which is `d`. -/
def StoredAt (st : Store) (off : Nat) (d : Byte) (s t : State) : Prop :=
  ∀ st' off', t.byteAt st' off' = if st' = st ∧ off' = off then d else s.byteAt st' off'

/-- TimingAdvance as R180 and R181 write it. -/
def Advanced (cfg : Config) (n : Nat) (a b : Timing) : Prop :=
  if a.vsyncTicks - n ≤ 0 then
    b.vsyncTicks = a.vsyncTicks - n + cfg.tpf ∧ b.vblankTicks = cfg.vblankTicks ∧ b.intAck = false
  else
    b.vsyncTicks = a.vsyncTicks - n ∧ b.intAck = a.intAck ∧
      b.vblankTicks = if 0 < a.vblankTicks then max 0 (a.vblankTicks - n) else a.vblankTicks

/-- The pin word `P'` a bus step returns for `P`: data lines `d`, INT from the timing state (R182), every other pin as
in `P` (R125); and it is handed out last. -/
def Returned (p : PinWord) (d : Byte) (t : State) : Prop :=
  PinWord.data t.pinsOut = d ∧
  (PinWord.int t.pinsOut = true ↔ 0 < t.timing.vblankTicks ∧ t.timing.intAck = false) ∧
  (∀ i, i < 32 → ¬ (16 ≤ i ∧ i < 24) → i ≠ 30 → t.pinsOut.getLsbD i = p.getLsbD i)

/-- What every bus step but an acknowledge does (R100): timing, returned pins with data lines `d`, and `sent` handed
out before the pins. Events and returned pins stand in the model's own outbox (notes/assumptions/6.md). -/
def Cycle (p : PinWord) (n : Nat) (d : Byte) (sent : List Output) (s t : State) : Prop :=
  Advanced s.cfg n s.timing t.timing ∧ Returned p d t ∧ t.outbox = s.outbox ++ sent ++ [.pins t.pinsOut]

/-- A cycle that changes nothing but the timing state, the pins and what has been handed out. -/
def QuietCycle (p : PinWord) (n : Nat) (d : Byte) (s t : State) : Prop :=
  Cycle p n d [] s t ∧ SameStores s t ∧ Unchanged [.timing, .pinsOut, .outbox] s t

/-- The state is a legal one, and no fault is recorded. -/
def Ready (s : State) : Prop := s.Inv ∧ s.fault = none

/-- A colour entry of the palette table. -/
def entry (s : State) (i : Nat) : RGBA := colourAt s.palette i

/-- R160 in numbers: the code byte at `i`, the attribute byte at `i + HALF[L]`. -/
def IsTileInfo (s : State) (l : TileLayer) (i : Nat) (info : TileInfo) : Prop :=
  info.code = (s.byteAt (.tile l) (i + s.cfg.half l)).toNat % 2 ^ s.cfg.codeBits.get l * 256
      + (s.byteAt (.tile l) i).toNat ∧
    info.color = (s.byteAt (.tile l) (i + s.cfg.half l)).toNat / 16

/-- R29: the renderer's offset is the corrected value of the window's bytes. -/
def ScrollCurrent (s : State) (l : ScrollLayer) : Prop :=
  s.scrollX.get l =
    (((s.scroll.get l).get s.cfg.scrollHiOff).toNat * 256 + ((s.scroll.get l).get s.cfg.scrollLoOff).toNat : Int)
      + s.cfg.scrollCorrection

/-- R26: the entry is the expansion of the two bytes of its slot: each nibble `v` becomes `17 * v`, alpha is 255. -/
def PaletteCurrent (s : State) (i : Nat) : Prop :=
  (entry s i).r.toNat = 17 * ((s.byteAt .palette (2 * i + 1)).toNat / 16) ∧
  (entry s i).g.toNat = 17 * ((s.byteAt .palette (2 * i + 1)).toNat % 16) ∧
  (entry s i).b.toNat = 17 * ((s.byteAt .palette (2 * i)).toNat % 16) ∧
  (entry s i).a.toNat = 255

/-- The bus steps of a list, one after another. -/
def busSteps : List (PinWord × Nat) → State → Answer
  | [], s => .next s
  | (p, n) :: rest, s =>
    match exec (.hostBusStep p n) s with
    | .next t => busSteps rest t
    | .fault f => .fault f
    | .refused r => .refused r

/-- A bus step with no request that takes one tick (R89 `NOP /1`). -/
def nop : PinWord × Nat := (0, 1)

/-- The pin words of R89. -/
def mrd (a : BitVec 16) : PinWord := pack (.memRd false) ⟨a, 0, false, false, false, 0⟩
def mwr (a : BitVec 16) (d : Byte) : PinWord := pack .memWr ⟨a, d, false, false, false, 0⟩

/-- The selectors of R85. -/
def selectors : List (BitVec 8) :=
  [0b00000000#8, 0b00000001#8, 0b00010000#8, 0b00010001#8, 0b00010010#8, 0b00100000#8, 0b00110000#8, 0b01000000#8,
   0b01010000#8, 0b01010001#8, 0b01010010#8]

/-- A row of R82: WR, RD, IORQ, MREQ, M1, where `none` is "x", and the kind. -/
structure CtlRow where
  wr : Option Bool
  rd : Option Bool
  iorq : Option Bool
  mreq : Option Bool
  m1 : Option Bool
  kind : CycleKind

def agrees (x : Option Bool) (b : Bool) : Bool :=
  match x with
  | some v => v == b
  | none => true

def CtlRow.matches (r : CtlRow) (c : Ctl) : Bool :=
  agrees r.wr c.wr && agrees r.rd c.rd && agrees r.iorq c.iorq && agrees r.mreq c.mreq && agrees r.m1 c.m1

/-- The table of R82, top to bottom. -/
def ctlTable : List CtlRow :=
  [⟨some true, some true, none, none, none, .illegalRdwr⟩,
   ⟨none, none, some true, some true, none, .illegalMemio⟩,
   ⟨none, none, some true, some false, some true, .inta⟩,
   ⟨some false, some true, some true, some false, some false, .ioRead⟩,
   ⟨some true, some false, some true, some false, some false, .ioWrite⟩,
   ⟨some false, some false, some true, some false, some false, .ioIdle⟩,
   ⟨some true, some false, some false, some true, some true, .illegalM1wr⟩,
   ⟨some false, some true, some false, some true, none, .memRead⟩,
   ⟨some true, some false, some false, some true, some false, .memWrite⟩,
   ⟨some false, some false, some false, some true, none, .memIdle⟩,
   ⟨none, none, some false, some false, none, .noRequest⟩]

/-! ### R9 and R271 in words -/

/-- Two regions share no address. -/
def Apart (r q : Region) : Prop := ∀ a, ¬ (r.contains a = true ∧ q.contains a = true)

/-- The places of the CPU-visible fixed ROMs and of the RAM regions: R9 (b). -/
def IsStoreRegion (cfg : Config) (r : Region) : Prop :=
  cfg.rom0.start.map (fun a => Region.mk a cfg.rom0.size) = some r ∨
  cfg.rom1.start.map (fun a => Region.mk a cfg.rom1.size) = some r ∨
  cfg.rom2.start.map (fun a => Region.mk a cfg.rom2.size) = some r ∨
  r = cfg.workRam ∨ (∃ l, r = cfg.tileRam.get l) ∨ r = cfg.spriteRam ∨ r = cfg.paletteRam

/-- The scroll windows, BANKSEL, the bank window and the input ports: R9 (h). -/
def IsRegisterRegion (cfg : Config) (r : Region) : Prop :=
  (∃ l, r = ⟨cfg.scrollWin.get l, 3⟩) ∨ r = ⟨cfg.bankselAddr, 1⟩ ∨ r = cfg.bankWindow ∨
    ∃ a src, cfg.inputPort a = some src ∧ r = ⟨a, 1⟩

/-- The regions of R9 (b), in the order of R51. -/
def storeRegionList (cfg : Config) : List Region :=
  [cfg.rom0, cfg.rom1, cfg.rom2].filterMap (fun r => r.start.map fun a => Region.mk a r.size) ++
    [cfg.workRam, cfg.tileRam.tx, cfg.tileRam.fg, cfg.tileRam.bg, cfg.spriteRam, cfg.paletteRam]

/-- An image in the model's form: its listed bytes are in rising order, none is 0, all lie below its size. -/
def IsImage (i : Image) : Prop := Memory.wf i.cells = true ∧ ∀ c ∈ i.cells, c.1 < i.size

/-- The conditions under which R271 gives a state. `scrollOffsets`, the form `IsImage` and the absence of a size in
`tileRoms` and `spriteGraphics` are the model's choices (notes/assumptions/9.md, 13.md, 16.md). -/
structure LaunchInWords (l : Launch) : Prop where
  inSpace : ∀ r, IsStoreRegion l.cfg r ∨ IsRegisterRegion l.cfg r → r.start + r.size ≤ 2 ^ l.cfg.addrBits
  storesApart : (storeRegionList l.cfg).Pairwise Apart
  tileEven : ∀ k, (l.cfg.tileRam.get k).size % 2 = 0
  paletteSize : l.cfg.paletteRam.size = 2 * 1024
  tilesSuffice : ∀ k, 2 ^ (8 + l.cfg.codeBits.get k) ≤ l.cfg.gfxTiles.get k
  ticks : 1 ≤ l.cfg.cpuFreq / l.cfg.refreshRate
  shift : l.cfg.bankShift ≤ 8
  registersApart : ∀ r q, IsRegisterRegion l.cfg r → IsStoreRegion l.cfg q → Apart r q
  bases : [l.cfg.palBase.bg, l.cfg.palBase.fg, l.cfg.palBase.tx, l.cfg.palBase.spr].Nodup
  rows : l.cfg.overscanRows + l.cfg.visH ≤ l.cfg.bmpH
  columns : l.cfg.visW ≤ l.cfg.bmpW
  scrollOffsets : l.cfg.scrollLoOff < 3 ∧ l.cfg.scrollHiOff < 3
  fixed0 : ∃ i, l.images.fixed0 = some i ∧ i.size = l.cfg.rom0.size ∧ IsImage i
  fixed1 : ∃ i, l.images.fixed1 = some i ∧ i.size = l.cfg.rom1.size ∧ IsImage i
  fixed2 : ∃ i, l.images.fixed2 = some i ∧ i.size = l.cfg.rom2.size ∧ IsImage i
  bank : ∃ i, l.images.bank = some i ∧ i.size = l.cfg.bankStorageSize ∧ IsImage i
  tileRoms : ∀ k, ∃ i, l.images.tileRom.get k = some i ∧ IsImage i
  spriteGraphics : IsImage l.images.gfxSpr

end Sys2Proof.Spec

open Sys2Proof Sys2Proof.Machine Sys2Proof.Spec

/-! ### Encoding and sequencing -/

/-- R80, R82, R83, R85: decoding an encoded well-formed instruction gives it back, for every instruction and every
operand. -/
def Obligations.DecodeOfEncodeIsIdentity : Prop :=
  ∀ (cfg : Config) (i : Instr), i.wf cfg = true → decode cfg (encode i) = .ok i

/-- R82, R83, R84: every pin word decodes to a well-formed row whose encoding is that pin word, no bit dropped. -/
def Obligations.EncodeOfDecodedPinsIsIdentity : Prop :=
  ∀ (cfg : Config) (p : PinWord) (n : Nat),
    (decodeBus cfg p n).wf cfg = true ∧ encode (decodeBus cfg p n) = .bus p n

/-- R89 and the vectors V6, V28, V39, V95, V43: words written out from the spec decode to their rows (TEST). -/
def Obligations.SpecWordsDecode : Prop :=
  decodeBus Config.test 0x0A00C000#32 4 = .memRdGeneric false ⟨0xC000#16, 0, false, false, false, 4⟩ ∧
  decodeBus Config.test 0x0B00F010#32 4 = .memRdBankwin true ⟨0xF010#16, 0, false, false, false, 4⟩ ∧
  decodeBus Config.test 0x127EC000#32 4 = .memWrWorkram ⟨0xC000#16, 0x7E#8, false, false, false, 4⟩ ∧
  decodeBus Config.test 0x1218F808#32 4 = .memWrBanksel ⟨0xF808#16, 0x18#8, false, false, false, 4⟩ ∧
  decodeBus Config.test 0x05000000#32 4 = .inta false false ⟨0, 0, false, false, false, 4⟩ ∧
  decodeBus Config.test 0x1A00C000#32 4 = .illegalRdwr false true false ⟨0xC000#16, 0, false, false, false, 4⟩ ∧
  decodeHost 0b01010010#8 { HostOperands.zero with value := 0x80#8 } = .ok (.hostInputSet 2 0x80#8)

/-- R82: the classification is the first matching row of the table, and some row matches every value of `CTL`. -/
def Obligations.ClassifyIsFirstMatchingRow : Prop :=
  ∀ c : Ctl, ∃ r, ctlTable.find? (fun r => r.matches c) = some r ∧ classify c = r.kind

/-- R87: a HOST selector outside R85's table is refused by name, and every selector of the table is decoded. -/
def Obligations.ReservedSelectorIsRefused : Prop :=
  (∀ (s : State) (h : BitVec 8) (o : HostOperands) (rest : List Call), h ∉ selectors → s.fault = none →
      s.env.calls = .host h o :: rest → step s = .refused (.reservedHostOp h)) ∧
  (∀ (cfg : Config) (h : BitVec 8) (o : HostOperands), h ∈ selectors → ∃ i, decode cfg (.host h o) = .ok i)

/-- R7, R21: a step runs the instruction the oldest waiting call decodes to; the call leaves the queue and the outbox
(the model's own, notes/assumptions/4.md) starts empty. With no call waiting nothing changes. -/
def Obligations.StepRunsDecodedCall : Prop :=
  (∀ (s : State) (c : Call) (rest : List Call) (i : Instr), s.env.calls = c :: rest → decode s.cfg c = .ok i →
      step s = exec i { s with env := { s.env with calls := rest }, outbox := [] }) ∧
  (∀ s : State, s.env.calls = [] → step s = .next s)

/-- The model's own fetch (notes/assumptions/4.md): a table word placed by `withFetchWord` is what the next step runs. -/
def Obligations.PlacedWordIsRunNext : Prop :=
  ∀ (s : State) (nbits w : Nat) (c : Call) (i : Instr), tableCall nbits w = some c → decode s.cfg c = .ok i →
    step (s.withFetchWord nbits w) = exec i { s with outbox := [] }

/-! ### Initialisation -/

/-- R271 with the values of R270, from any state, a faulted one too: RAM zeroed, ROMs and decoded stores from the
images, registers and inputs 0, the timing state at its start, every slot dirty, no fault. -/
def Obligations.ResetRebuildsEverything : Prop :=
  ∀ (l : Launch) (s : State), launchOk l = true →
    ∃ t, exec (.hostReset l) s = .next t ∧
      t.cfg = l.cfg ∧ t.fault = none ∧
      (∀ st off, (∀ r, st ≠ .rom r) → t.byteAt st off = 0) ∧
      (∀ i, l.images.fixed0 = some i → ∀ off, t.byteAt (.rom .fixed0) off = Memory.read i.cells off) ∧
      (∀ i, l.images.fixed1 = some i → ∀ off, t.byteAt (.rom .fixed1) off = Memory.read i.cells off) ∧
      (∀ i, l.images.fixed2 = some i → ∀ off, t.byteAt (.rom .fixed2) off = Memory.read i.cells off) ∧
      (∀ i, l.images.bank = some i → ∀ off, t.byteAt (.rom .bank) off = Memory.read i.cells off) ∧
      (∀ k i, l.images.tileRom.get k = some i →
        t.gfx.get k = (List.range (l.cfg.gfxTiles.get k)).map (Config.planarTile k i)) ∧
      t.gfxSpr = l.images.gfxSpr ∧
      t.palette.length = 1024 ∧ t.bankIndex = 0 ∧
      (∀ k, t.scroll.get k = ⟨0, 0, 0⟩) ∧ t.inputs = ⟨0, 0, 0⟩ ∧
      t.timing = ⟨l.cfg.tpf, 0, false⟩ ∧
      (∀ k i, i < l.cfg.half k → (t.dirty.get k).getD i false = true) ∧
      t.env.calls = s.env.calls ∧ t.env.pacing = s.env.pacing ∧ t.env.slices = s.env.slices

/-- R272, R9: an initialisation is refused exactly when the launch lacks one of the properties (a) to (h) of R9, the
premises of R203 and R207, or a fixed ROM or bank storage image of its size. The model's own choices in it: scroll
offsets lie inside a window (notes/assumptions/9.md), an image is in the model's form (notes/assumptions/13.md), and a
tile ROM image is accepted at any size and GFX_SPR whatever it holds (notes/assumptions/16.md). -/
def Obligations.IncompleteLaunchIsRefused : Prop :=
  ∀ (l : Launch) (s : State),
    (¬ LaunchInWords l → exec (.hostReset l) s = .refused .launchRefused) ∧
    (LaunchInWords l → ∃ t, exec (.hostReset l) s = .next t)

/-- R270 for the board that `State.reset` is: zeroed RAM, registers 0, `vsync_ticks = TPF >= 1`, ACTIVE, all dirty. -/
def Obligations.ResetStateValues : Prop :=
  (∀ st off, (∀ r, st ≠ .rom r) → State.reset.byteAt st off = 0) ∧
  State.reset.bankIndex = 0 ∧ State.reset.scroll = ⟨⟨0, 0, 0⟩, ⟨0, 0, 0⟩⟩ ∧ State.reset.inputs = ⟨0, 0, 0⟩ ∧
  State.reset.timing.vsyncTicks = State.reset.cfg.cpuFreq / State.reset.cfg.refreshRate ∧
  1 ≤ State.reset.timing.vsyncTicks ∧
  State.reset.timing.vblankTicks = 0 ∧ State.reset.timing.intAck = false ∧
  (∀ k i, i < State.reset.cfg.half k → (State.reset.dirty.get k).getD i false = true) ∧
  State.reset.fault = none ∧ launchOk Launch.ref = true

/-! ### Memory reads -/

/-- R103: a generic read, an opcode fetch alike, returns the byte of the region the address lies in and changes nothing
but timing and pins. -/
def Obligations.GenericReadReturnsStoredByte : Prop :=
  ∀ (m1 : Bool) (b : BusOperands) (s : State) (st : Store) (r : Region), Ready s →
    ((st = .rom .fixed0 ∧ s.cfg.rom0.start = some r.start ∧ s.cfg.rom0.size = r.size) ∨
     (st = .rom .fixed1 ∧ s.cfg.rom1.start = some r.start ∧ s.cfg.rom1.size = r.size) ∨
     (st = .rom .fixed2 ∧ s.cfg.rom2.start = some r.start ∧ s.cfg.rom2.size = r.size) ∨
     (st = .work ∧ r = s.cfg.workRam) ∨ (∃ l, st = .tile l ∧ r = s.cfg.tileRam.get l) ∨
     (st = .sprite ∧ r = s.cfg.spriteRam) ∨ (st = .palette ∧ r = s.cfg.paletteRam)) →
    r.start ≤ b.addr.toNat → b.addr.toNat < r.start + r.size →
    ∃ t, exec (.memRdGeneric m1 b) s = .next t ∧
      QuietCycle (pack (.memRd m1) b) b.ticks (s.byteAt st (b.addr.toNat - r.start)) s t

/-- R114: a window read returns the byte of bank storage at the offset plus `bank_index * BANK_WINDOW_SIZE`. -/
def Obligations.BankWindowReadReturnsBankByte : Prop :=
  ∀ (m1 : Bool) (b : BusOperands) (s : State), s.fault = none → (Instr.memRdBankwin m1 b).wf s.cfg = true →
    (s.bankIndex.toNat + 1) * s.cfg.bankWindow.size ≤ s.cfg.bankStorageSize →
    ∃ t, exec (.memRdBankwin m1 b) s = .next t ∧
      QuietCycle (pack (.memRd m1) b) b.ticks
        (s.byteAt (.rom .bank)
          ((b.addr.toNat - s.cfg.bankWindow.start) + s.bankIndex.toNat * s.cfg.bankWindow.size)) s t

/-- R114, R241 code 2: a window read with the selected bank not wholly inside bank storage faults. -/
def Obligations.BankOutsideStorageFaults : Prop :=
  ∀ (m1 : Bool) (b : BusOperands) (s : State), s.fault = none →
    s.cfg.bankStorageSize < (s.bankIndex.toNat + 1) * s.cfg.bankWindow.size →
    exec (.memRdBankwin m1 b) s = .fault (.bankOutOfRange b.addr s.bankIndex)

/-- R115: an input-port read returns the register, the constant or 0 that the port map names; `inputs` is unchanged. -/
def Obligations.InputReadReturnsPort : Prop :=
  ∀ (m1 : Bool) (b : BusOperands) (s : State) (src : PortSource), s.fault = none →
    (Instr.memRdInput m1 b).wf s.cfg = true → s.cfg.inputPort b.addr.toNat = some src →
    ∃ t d, exec (.memRdInput m1 b) s = .next t ∧ QuietCycle (pack (.memRd m1) b) b.ticks d s t ∧
      (src = .reg 0 → d = s.inputs.b0) ∧ (src = .reg 1 → d = s.inputs.b1) ∧ (src = .reg 2 → d = s.inputs.b2) ∧
      (∀ c, src = .const c → d = c) ∧ (src = .zero → d = 0)

/-- R116: an unmapped read returns 0. -/
def Obligations.UnmappedReadReturnsZero : Prop :=
  ∀ (m1 : Bool) (b : BusOperands) (s : State), s.fault = none → (Instr.memRdUnmapped m1 b).wf s.cfg = true →
    ∃ t, exec (.memRdUnmapped m1 b) s = .next t ∧ QuietCycle (pack (.memRd m1) b) b.ticks 0 s t

/-! ### Memory writes -/

/-- R104: the byte is stored in work RAM and nothing else changes but timing and pins. -/
def Obligations.WorkRamWriteStoresByte : Prop :=
  ∀ (b : BusOperands) (s : State), Ready s → (Instr.memWrWorkram b).wf s.cfg = true →
    ∃ t, exec (.memWrWorkram b) s = .next t ∧ Cycle (pack .memWr b) b.ticks b.data [] s t ∧
      StoredAt .work (b.addr.toNat - s.cfg.workRam.start) b.data s t ∧
      Unchanged [.timing, .pinsOut, .outbox] s t

/-- R105, R106, R107: the byte is stored in the layer's tile RAM, the slot `off mod HALF[L]` and no other is marked, and
`mark_tile_dirty(L, slot)` is sent. -/
def Obligations.TileRamWriteMarksSlot : Prop :=
  ∀ (l : TileLayer) (b : BusOperands) (s : State) (i : Instr), Ready s →
    (l = .tx ∧ i = .memWrTxram b ∨ l = .fg ∧ i = .memWrFgram b ∨ l = .bg ∧ i = .memWrBgram b) → i.wf s.cfg = true →
    ∃ t, exec i s = .next t ∧
      Cycle (pack .memWr b) b.ticks b.data
        [.markTileDirty l ((b.addr.toNat - (s.cfg.tileRam.get l).start) % s.cfg.half l)] s t ∧
      StoredAt (.tile l) (b.addr.toNat - (s.cfg.tileRam.get l).start) b.data s t ∧
      (∀ k j, (t.dirty.get k).getD j false =
        if k = l ∧ j = (b.addr.toNat - (s.cfg.tileRam.get l).start) % s.cfg.half l then true
        else (s.dirty.get k).getD j false) ∧
      Unchanged [.timing, .pinsOut, .outbox, .dirty] s t

/-- R108: the byte is stored in sprite RAM; no dirty mark, no other side effect. -/
def Obligations.SpriteRamWriteStoresByte : Prop :=
  ∀ (b : BusOperands) (s : State), Ready s → (Instr.memWrSprram b).wf s.cfg = true →
    ∃ t, exec (.memWrSprram b) s = .next t ∧ Cycle (pack .memWr b) b.ticks b.data [] s t ∧
      StoredAt .sprite (b.addr.toNat - s.cfg.spriteRam.start) b.data s t ∧
      Unchanged [.timing, .pinsOut, .outbox] s t

/-- R109, R141, R142: the byte is stored in palette RAM; an odd offset sets red and green, an even one blue, each from a
nibble `v` as `17 * v`; alpha becomes 255; the other channels and entries are kept. -/
def Obligations.PaletteRamWriteUpdatesCache : Prop :=
  ∀ (b : BusOperands) (s : State) (off : Nat), Ready s → (Instr.memWrPalram b).wf s.cfg = true →
    off = b.addr.toNat - s.cfg.paletteRam.start →
    ∃ t, exec (.memWrPalram b) s = .next t ∧ Cycle (pack .memWr b) b.ticks b.data [] s t ∧
      StoredAt .palette off b.data s t ∧
      (∀ j, j ≠ off / 2 → entry t j = entry s j) ∧
      (entry t (off / 2)).a.toNat = 255 ∧
      (off % 2 = 1 → (entry t (off / 2)).r.toNat = 17 * (b.data.toNat / 16) ∧
        (entry t (off / 2)).g.toNat = 17 * (b.data.toNat % 16) ∧ (entry t (off / 2)).b = (entry s (off / 2)).b) ∧
      (off % 2 = 0 → (entry t (off / 2)).b.toNat = 17 * (b.data.toNat % 16) ∧
        (entry t (off / 2)).r = (entry s (off / 2)).r ∧ (entry t (off / 2)).g = (entry s (off / 2)).g) ∧
      Unchanged [.timing, .pinsOut, .outbox, .palette] s t

/-- R110, R118, R113: a write to a fixed ROM, to the bank window or to an unmapped address (input ports included) is
dropped. -/
def Obligations.ReadOnlyAndUnmappedWritesAreDropped : Prop :=
  ∀ (b : BusOperands) (s : State) (i : Instr), s.fault = none →
    (i = .memWrRom b ∨ i = .memWrBankwin b ∨ i = .memWrUnmapped b) → i.wf s.cfg = true →
    ∃ t, exec i s = .next t ∧ QuietCycle (pack .memWr b) b.ticks b.data s t

/-- R111, R119: byte `k` of the layer's window is stored, the offset `(high * 256 + low) + SCROLL_CORRECTION` of the new
bytes becomes `scroll_x`, and `set_scroll_x(L, v)` is sent; the other layer is untouched. -/
def Obligations.ScrollWritePushesOffset : Prop :=
  ∀ (l : ScrollLayer) (b : BusOperands) (s : State) (i : Instr), s.fault = none →
    (l = .fg ∧ i = .memWrScrollfg b ∨ l = .bg ∧ i = .memWrScrollbg b) → i.wf s.cfg = true →
    ∃ t, exec i s = .next t ∧
      Cycle (pack .memWr b) b.ticks b.data [.setScrollX l (t.scrollX.get l)] s t ∧
      ScrollCurrent t l ∧
      (∀ k, k < 3 → (t.scroll.get l).get k =
        if k = b.addr.toNat - s.cfg.scrollWin.get l then b.data else (s.scroll.get l).get k) ∧
      (∀ k, k ≠ l → t.scroll.get k = s.scroll.get k ∧ t.scrollX.get k = s.scrollX.get k) ∧
      SameStores s t ∧ Unchanged [.timing, .pinsOut, .outbox, .scroll, .scrollX] s t

/-- R112: the bank index becomes `D >> BANK_SHIFT`, every value accepted. -/
def Obligations.BankSelectStoresShiftedByte : Prop :=
  ∀ (b : BusOperands) (s : State), s.fault = none → (Instr.memWrBanksel b).wf s.cfg = true →
    ∃ t, exec (.memWrBanksel b) s = .next t ∧ Cycle (pack .memWr b) b.ticks b.data [] s t ∧
      t.bankIndex.toNat = b.data.toNat / 2 ^ s.cfg.bankShift ∧
      SameStores s t ∧ Unchanged [.timing, .pinsOut, .outbox, .bankIndex] s t

/-! ### The other cycles -/

/-- R117: an acknowledge sets the latch after the timing advance, so its own INT is 0; the data lines hold some byte
(D15); every other pin passes through and nothing else changes but the draw counter of the model. -/
def Obligations.AcknowledgeSetsLatch : Prop :=
  ∀ (wr rd : Bool) (b : BusOperands) (s : State), s.fault = none → (Instr.inta wr rd b).wf s.cfg = true →
    ∃ t d u, exec (.inta wr rd b) s = .next t ∧ Advanced s.cfg b.ticks s.timing u ∧
      t.timing = { u with intAck := true } ∧ Returned (pack (.inta wr rd) b) d t ∧
      PinWord.int t.pinsOut = false ∧ t.outbox = s.outbox ++ [.pins t.pinsOut] ∧
      SameStores s t ∧ Unchanged [.timing, .pinsOut, .outbox, .draws] s t

/-- R120, R121, R126: an IO read returns 0 for every port; an IO write and an IO cycle with neither have no effect. -/
def Obligations.IoCyclesHaveNoPorts : Prop :=
  ∀ (b : BusOperands) (s : State), s.fault = none →
    (∃ t, exec (.ioRd b) s = .next t ∧ QuietCycle (pack .ioRd b) b.ticks 0 s t) ∧
    (∃ t, exec (.ioWr b) s = .next t ∧ QuietCycle (pack .ioWr b) b.ticks b.data s t) ∧
    (∃ t, exec (.ioIdle b) s = .next t ∧ QuietCycle (pack .ioIdle b) b.ticks b.data s t)

/-- R122, R123: a memory request with neither read nor write, and a step with no request, only let time pass. -/
def Obligations.IdleCyclesOnlyLetTimePass : Prop :=
  ∀ (wr rd m1 : Bool) (b : BusOperands) (s : State), s.fault = none →
    (∃ t, exec (.memIdle m1 b) s = .next t ∧ QuietCycle (pack (.memIdle m1) b) b.ticks b.data s t) ∧
    (∃ t, exec (.noRequest wr rd m1 b) s = .next t ∧ QuietCycle (pack (.noRequest wr rd m1) b) b.ticks b.data s t)

/-- R124, R86: the illegal pin words raise `IllegalPins`, recording `P` (R241). -/
def Obligations.IllegalPinsFault : Prop :=
  ∀ (wr rd iorq mreq m1 : Bool) (b : BusOperands) (s : State), s.fault = none →
    exec (.illegalRdwr iorq mreq m1 b) s = .fault (.illegalPins (pack (.illegalRdwr iorq mreq m1) b)) ∧
    exec (.illegalMemio wr rd m1 b) s = .fault (.illegalPins (pack (.illegalMemio wr rd m1) b)) ∧
    exec (.illegalM1wr b) s = .fault (.illegalPins (pack .illegalM1wr b))

/-! ### Bus steps as a whole -/

/-- R100, R83: HOST.BUS_STEP on a pin word does what the BUS row it decodes to does; so does a BUS call of that word. -/
def Obligations.BusStepDoesDecodedRow : Prop :=
  ∀ (p : PinWord) (n : Nat) (s : State), exec (.hostBusStep p n) s = exec (decodeBus s.cfg p n) s

/-- R100, R86, R114: with no fault recorded, a bus step of a pin word that is not illegal, and is no window
read of a bank outside storage, completes. -/
def Obligations.BusStepCompletes : Prop :=
  ∀ (p : PinWord) (n : Nat) (s : State), s.fault = none →
    (∀ iorq mreq m1 b, decodeBus s.cfg p n ≠ .illegalRdwr iorq mreq m1 b) →
    (∀ wr rd m1 b, decodeBus s.cfg p n ≠ .illegalMemio wr rd m1 b) →
    (∀ b, decodeBus s.cfg p n ≠ .illegalM1wr b) →
    ((∀ m1 b, decodeBus s.cfg p n ≠ .memRdBankwin m1 b) ∨
      (s.bankIndex.toNat + 1) * s.cfg.bankWindow.size ≤ s.cfg.bankStorageSize) →
    ∃ t, exec (.hostBusStep p n) s = .next t ∧ t.fault = none

/-- R125, R182: whatever the bus step, INT is `vblank_ticks > 0 and not int_ack`, every pin but D and INT returns as it
was, and D too unless the cycle is a read or an acknowledge. -/
def Obligations.BusStepPassesOtherPinsThrough : Prop :=
  ∀ (p : PinWord) (n : Nat) (s t : State), exec (.hostBusStep p n) s = .next t →
    Returned p (PinWord.data t.pinsOut) t ∧
    (classify (Ctl.ofPins p) ≠ .memRead → classify (Ctl.ofPins p) ≠ .ioRead → classify (Ctl.ofPins p) ≠ .inta →
      PinWord.data t.pinsOut = PinWord.data p)

/-- R180, R181: every bus step advances the timing state by its tick count; an acknowledge then sets the latch. -/
def Obligations.EveryBusStepAdvancesTiming : Prop :=
  ∀ (p : PinWord) (n : Nat) (s t : State), exec (.hostBusStep p n) s = .next t →
    ∃ u, Advanced s.cfg n s.timing u ∧
      t.timing = if classify (Ctl.ofPins p) = .inta then { u with intAck := true } else u

/-- R183: from `vsync_ticks = TPF`, `vblank_ticks = 0` and no acknowledge, one-tick steps none of which is an
acknowledge, whatever else they do, drive INT to 1 exactly in the steps `k >= TPF` with `k mod TPF < VBLANK_TICKS`; and
such steps exist at every length, those with no request. -/
def Obligations.InterruptWindowIsPeriodic : Prop :=
  ∀ (s : State), s.fault = none → s.timing = ⟨s.cfg.tpf, 0, false⟩ → s.cfg.vblankTicks < s.cfg.tpf →
    (∀ (ps : List PinWord) (t : State), ps ≠ [] → (∀ p ∈ ps, classify (Ctl.ofPins p) ≠ .inta) →
      busSteps (ps.map fun p => (p, 1)) s = .next t →
      (PinWord.int t.pinsOut = true ↔ s.cfg.tpf ≤ ps.length ∧ ps.length % s.cfg.tpf < s.cfg.vblankTicks)) ∧
    ∀ k, 1 ≤ k → ∃ t, busSteps (List.replicate k nop) s = .next t ∧
      (PinWord.int t.pinsOut = true ↔ s.cfg.tpf ≤ k ∧ k % s.cfg.tpf < s.cfg.vblankTicks)

/-- R184: once acknowledged, INT stays 0 and the latch stays set through every bus step that opens no window; the step
that opens one, if it is no acknowledge itself, clears the latch. -/
def Obligations.AcknowledgeMasksUntilNextWindow : Prop :=
  ∀ (p : PinWord) (n : Nat) (s t : State), exec (.hostBusStep p n) s = .next t → s.timing.intAck = true →
    (0 < s.timing.vsyncTicks - n → t.timing.intAck = true ∧ PinWord.int t.pinsOut = false) ∧
    (s.timing.vsyncTicks - n ≤ 0 → classify (Ctl.ofPins p) ≠ .inta → t.timing.intAck = false) ∧
    (classify (Ctl.ofPins p) = .inta → t.timing.intAck = true ∧ PinWord.int t.pinsOut = false)

/-- R188: with `VBLANK_TICKS = 0` INT is never 1 after a bus step, from any state outside a window. -/
def Obligations.NoVblankMeansNoInterrupt : Prop :=
  ∀ (p : PinWord) (n : Nat) (s t : State), exec (.hostBusStep p n) s = .next t → s.cfg.vblankTicks = 0 →
    s.timing.vblankTicks ≤ 0 → PinWord.int t.pinsOut = false ∧ t.timing.vblankTicks ≤ 0

/-- R31, R32: while a step has `n <= TPF`, `vsync_ticks` keeps to 1..TPF; after any step it is at most `TPF` if it was,
and `vblank_ticks` stays nonnegative. -/
def Obligations.TimingCountersKeepBounds : Prop :=
  ∀ (p : PinWord) (n : Nat) (s t : State), exec (.hostBusStep p n) s = .next t →
    (s.timing.vsyncTicks ≤ s.cfg.tpf → t.timing.vsyncTicks ≤ t.cfg.tpf) ∧
    (n ≤ s.cfg.tpf → 1 ≤ s.timing.vsyncTicks → s.timing.vsyncTicks ≤ s.cfg.tpf →
      1 ≤ t.timing.vsyncTicks ∧ t.timing.vsyncTicks ≤ t.cfg.tpf) ∧
    (0 ≤ s.timing.vblankTicks → 0 ≤ t.timing.vblankTicks)

/-- R61, R103: a byte written to a RAM address over the bus is what the next read of that address returns. -/
def Obligations.BusReadAfterWriteReturnsByte : Prop :=
  ∀ (a : BitVec 16) (d : Byte) (n m : Nat) (s : State), Ready s →
    (s.cfg.workRam.contains a.toNat = true ∨ (∃ l, (s.cfg.tileRam.get l).contains a.toNat = true) ∨
      s.cfg.spriteRam.contains a.toNat = true ∨ s.cfg.paletteRam.contains a.toNat = true) →
    ∃ t u, exec (.hostBusStep (mwr a d) n) s = .next t ∧ exec (.hostBusStep (mrd a) m) t = .next u ∧
      PinWord.data u.pinsOut = d

/-- R112, R114, R281: after a BANKSEL write of `D` the very next read in the window returns bank `D >> BANK_SHIFT`. -/
def Obligations.BankSwitchIsSeenByNextRead : Prop :=
  ∀ (a : BitVec 16) (d : Byte) (n m : Nat) (s : State), s.fault = none → s.cfg.bankselAddr < 65536 →
    (Instr.memWrBanksel ⟨BitVec.ofNat 16 s.cfg.bankselAddr, d, false, false, false, n⟩).wf s.cfg = true →
    (Instr.memRdBankwin false ⟨a, 0, false, false, false, m⟩).wf s.cfg = true →
    (d.toNat / 2 ^ s.cfg.bankShift + 1) * s.cfg.bankWindow.size ≤ s.cfg.bankStorageSize →
    ∃ t u, exec (.hostBusStep (mwr (BitVec.ofNat 16 s.cfg.bankselAddr) d) n) s = .next t ∧
      exec (.hostBusStep (mrd a) m) t = .next u ∧
      PinWord.data u.pinsOut = s.byteAt (.rom .bank)
        (a.toNat - s.cfg.bankWindow.start + d.toNat / 2 ^ s.cfg.bankShift * s.cfg.bankWindow.size)

/-- R52: outside every decode range a read returns 0 and a write has no effect on any region or register. -/
def Obligations.OutsideEveryRangeNothingHappens : Prop :=
  ∀ (a : BitVec 16) (d : Byte) (n : Nat) (s : State), s.fault = none →
    (∀ r, IsStoreRegion s.cfg r → r.contains a.toNat = false) →
    (∀ r, IsRegisterRegion s.cfg r → r.contains a.toNat = false) →
    (∃ t, exec (.hostBusStep (mrd a) n) s = .next t ∧ QuietCycle (mrd a) n 0 s t) ∧
    (∃ t, exec (.hostBusStep (mwr a d) n) s = .next t ∧ QuietCycle (mwr a d) n d s t)

/-! ### Tile and palette queries, input -/

/-- R160 to R163: `tile_info(i)` of a layer answers the code and colour of slot `i` and changes nothing; a slot at or
above `HALF[L]` faults (R241 code 3). -/
def Obligations.TileInfoAnswersSlot : Prop :=
  ∀ (l : TileLayer) (i : Nat) (s : State) (q : Instr), s.fault = none →
    (l = .tx ∧ q = .hostTileInfoTx i ∨ l = .fg ∧ q = .hostTileInfoFg i ∨ l = .bg ∧ q = .hostTileInfoBg i) →
    (i < s.cfg.half l → ∃ t info, exec q s = .next t ∧ IsTileInfo s l i info ∧
      t.outbox = s.outbox ++ [.tileInfo l i info] ∧ SameStores s t ∧ Unchanged [.outbox] s t) ∧
    (s.cfg.half l ≤ i → exec q s = .fault (.slotOutOfRange l i))

/-- R164: in a legal state every code `tile_info` can return indexes the layer's decoded store. -/
def Obligations.TileCodesIndexTheStore : Prop :=
  ∀ (s : State) (l : TileLayer) (i : Nat) (info : TileInfo), s.Inv → IsTileInfo s l i info →
    info.code < (s.gfx.get l).length

/-- R143: a lookup answers the entry as it stands and changes nothing; an index of 1024 or more faults. -/
def Obligations.PaletteLookupAnswersEntry : Prop :=
  ∀ (i : Nat) (s : State), s.fault = none →
    (i < 1024 → ∃ t, exec (.hostPalLookup i) s = .next t ∧ t.outbox = s.outbox ++ [.colour i (entry s i)] ∧
      SameStores s t ∧ Unchanged [.outbox] s t) ∧
    (1024 ≤ i → exec (.hostPalLookup i) s = .fault (.paletteIndexOutOfRange i none))

/-- R227: INPUT_SET sets register `k` to `v` and changes nothing else. -/
def Obligations.InputSetStoresByte : Prop :=
  ∀ (k : Fin 3) (v : Byte) (s : State), s.fault = none →
    ∃ t, exec (.hostInputSet k v) s = .next t ∧
      (∀ j : Fin 3, t.inputs.get j.val = if j = k then v else s.inputs.get j.val) ∧
      SameStores s t ∧ Unchanged [.inputs] s t

/-- R144: the two writes of a palette slot, in either order, leave the entry the expansion of the two bytes, whatever it
held before. -/
def Obligations.PaletteWritesCommute : Prop :=
  ∀ (i : Nat) (hi lo : Byte) (s : State) (first second : BusOperands), Ready s → i < 1024 →
    (first.addr.toNat = s.cfg.paletteRam.start + 2 * i + 1 ∧ first.data = hi ∧
       second.addr.toNat = s.cfg.paletteRam.start + 2 * i ∧ second.data = lo ∨
     first.addr.toNat = s.cfg.paletteRam.start + 2 * i ∧ first.data = lo ∧
       second.addr.toNat = s.cfg.paletteRam.start + 2 * i + 1 ∧ second.data = hi) →
    ∃ t u, exec (.memWrPalram first) s = .next t ∧ exec (.memWrPalram second) t = .next u ∧
      PaletteCurrent u i ∧ u.byteAt .palette (2 * i + 1) = hi ∧ u.byteAt .palette (2 * i) = lo

/-! ### The compositor -/

/-- R200, R207, R208, R209: with every visible pixel of the composed bitmap below 1024, `draw()` completes, each frame
pixel is the palette entry of its bitmap pixel, and nothing is written but frame, bitmap, dirty flags and caches. -/
def Obligations.DrawResolvesThroughPalette : Prop :=
  ∀ (s : State), s.fault = none → (∀ y x, y < s.cfg.visH → x < s.cfg.visW → s.compose.visiblePixel y x < 1024) →
    ∃ t, exec .hostDraw s = .next t ∧
      HasShape s.cfg.visH s.cfg.visW t.frame ∧
      (∀ y x, y < s.cfg.visH → x < s.cfg.visW →
        (t.frame.getD y []).getD x ⟨0, 0, 0, 0⟩ = entry s (pixelAt t.bitmap (y + s.cfg.overscanRows) x)) ∧
      SameStores s t ∧ Unchanged [.frame, .bitmap, .dirty, .tileCache, .outbox] s t

/-- R208, R241 code 4: a visible pixel at or above 1024 faults, recording its index and place; it is the first such pixel
top to bottom, left to right. -/
def Obligations.DrawFaultsAtFirstPixelWithoutColour : Prop :=
  ∀ (s : State) (y x : Nat), s.fault = none → y < s.cfg.visH → x < s.cfg.visW →
    1024 ≤ s.compose.visiblePixel y x →
    (∀ y' x', y' < s.cfg.visH → x' < s.cfg.visW → y' < y ∨ y' = y ∧ x' < x → s.compose.visiblePixel y' x' < 1024) →
    exec .hostDraw s = .fault (.paletteIndexOutOfRange (s.compose.visiblePixel y x) (some (x, y)))

/-- R200 example, R202, R208: with every rasterizer painting nothing, every frame pixel is `palette[BG_CONST]`. -/
def Obligations.EmptyLayersShowBackground : Prop :=
  ∀ (s : State), Ready s → s.cfg.raster = ⟨.keep, .keep, .keep, .keep⟩ → s.cfg.bgConst < 1024 →
    ∃ t, exec .hostDraw s = .next t ∧ ∀ y x, y < s.cfg.visH → x < s.cfg.visW →
      (t.frame.getD y []).getD x ⟨0, 0, 0, 0⟩ = entry s s.cfg.bgConst

/-- R203, R204, R205: the layers are painted over the background constant in the order BG, FG, TX, sprites, each by its
rasterizer from the bitmap so far, the layer's current tile infos, its scroll offset (none for TX), its store, its base
and its tag; sprites from sprite RAM. -/
def Obligations.LayersArePaintedBackToFront : Prop :=
  ∀ (s t : State) (b f x p : Nat), s.Inv →
    s.cfg.raster = ⟨.external b, .external f, .external x, .external p⟩ → exec .hostDraw s = .next t →
    ∃ back bgMap fgMap txMap : Bitmap,
      back = tabulate s.cfg.bmpH s.cfg.bmpW (fun _ _ => s.cfg.bgConst) ∧
      bgMap = tabulate s.cfg.bmpH s.cfg.bmpW (Config.tileRaster b .bg back
        ((List.range (s.cfg.half .bg)).map (s.tileInfo .bg)) (some s.scrollX.bg) s.gfx.bg s.cfg.palBase.bg s.cfg.prio.bg) ∧
      fgMap = tabulate s.cfg.bmpH s.cfg.bmpW (Config.tileRaster f .fg bgMap
        ((List.range (s.cfg.half .fg)).map (s.tileInfo .fg)) (some s.scrollX.fg) s.gfx.fg s.cfg.palBase.fg s.cfg.prio.fg) ∧
      txMap = tabulate s.cfg.bmpH s.cfg.bmpW (Config.tileRaster x .tx fgMap
        ((List.range (s.cfg.half .tx)).map (s.tileInfo .tx)) none s.gfx.tx s.cfg.palBase.tx s.cfg.prio.tx) ∧
      t.bitmap = tabulate s.cfg.bmpH s.cfg.bmpW (Config.spriteRaster p txMap s.spriteRam s.gfxSpr s.cfg.palBase.spr
        s.cfg.prio.spr)

/-- R165, R204: after a draw no slot is dirty and every cache entry is the slot's `TileInfo`; `tile_info` was called for
the dirty slots alone. -/
def Obligations.DrawBringsCachesUpToDate : Prop :=
  ∀ (s t : State), s.Inv → exec .hostDraw s = .next t →
    (∀ l i, i < s.cfg.half l → (t.dirty.get l).getD i true = false ∧
      IsTileInfo t l i ((t.tileCache.get l).getD i ⟨0, 0⟩)) ∧
    (∀ l i info, .tileInfo l i info ∈ t.outbox.drop s.outbox.length →
      i < s.cfg.half l ∧ (s.dirty.get l).getD i false = true) ∧
    (∀ l i, i < s.cfg.half l → (s.dirty.get l).getD i false = true →
      ∃ info, .tileInfo l i info ∈ t.outbox.drop s.outbox.length)

/-- R200: drawing twice with no bus step between gives the same frame, and the second draw calls no `tile_info`. -/
def Obligations.DrawingTwiceGivesSameFrame : Prop :=
  ∀ (s t u : State), s.Inv → exec .hostDraw s = .next t → exec .hostDraw t = .next u →
    u.frame = t.frame ∧ u.outbox = t.outbox

/-! ### The driver -/

/-- R220, R221, R222, R226: for `ticks_to_run(t) = target` and slices that reach the target with the last one, the frame
does the bus steps of all slices in order, reports the ticks done, and draws exactly once. Pacing answers and slices as
data in the state are the model's choice (notes/assumptions/5.md). -/
def Obligations.RunFrameRunsSlicesThenDrawsOnce : Prop :=
  ∀ (s u v : State) (x target : Nat) (cs : List Slice) (restP : List Nat) (restS : List Slice),
    s.fault = none → s.env.pacing = target :: restP → s.env.slices = cs ++ restS →
    (∀ c ∈ cs, 1 ≤ (c.map Prod.snd).sum) →
    (∀ k, k < cs.length → (((cs.take k).flatten).map Prod.snd).sum < target) →
    target ≤ ((cs.flatten).map Prod.snd).sum →
    busSteps cs.flatten { s with env := { s.env with pacing := restP, slices := restS } } = .next u →
    exec .hostDraw { u with outbox := u.outbox ++ [.ticksExecuted ((cs.flatten).map Prod.snd).sum] } = .next v →
    exec (.hostRunFrame x) s = .next v

/-- R220 (target 0): no CPU slice runs and the frame is drawn once, whatever the slices waiting: the state reached is the
one a single HOST.DRAW leaves after the answer of the pacing utility is taken and 0 ticks are reported. That the answer
is taken from a list in the state is the model's choice (notes/assumptions/5.md). -/
def Obligations.RunFrameOfNoTicksStillDraws : Prop :=
  ∀ (s : State) (x : Nat) (restP : List Nat), s.fault = none → s.env.pacing = 0 :: restP →
    (∀ y z, y < s.cfg.visH → z < s.cfg.visW → s.compose.visiblePixel y z < 1024) →
    ∃ t, exec (.hostRunFrame x) s = .next t ∧
      exec .hostDraw { s with
        env := { s.env with pacing := restP }, outbox := s.outbox ++ [.ticksExecuted 0] } = .next t ∧
      .ticksExecuted 0 ∈ t.outbox ∧ t.env.pacing = restP ∧
      (∀ y z, y < s.cfg.visH → z < s.cfg.visW →
        (t.frame.getD y []).getD z ⟨0, 0, 0, 0⟩ = entry s (pixelAt t.bitmap (y + s.cfg.overscanRows) z)) ∧
      SameStores s t ∧
      Unchanged [.frame, .bitmap, .dirty, .tileCache, .outbox, .pacing] s t

/-- R220, R38: a fault of a bus step of the first slice stops the frame with that fault. A first slice of 0 ticks with
ticks left is the stuck case I13; that it ends in the fault engineStalled, no kind of R241, is the model's choice, and
so are pacing answers and slices as data in the state (notes/assumptions/5.md). -/
def Obligations.RunFrameStopsOnFaultOrStall : Prop :=
  ∀ (s : State) (x target : Nat) (c : Slice) (restP : List Nat) (restS : List Slice),
    s.fault = none → s.env.pacing = target :: restP → s.env.slices = c :: restS → 1 ≤ target →
    (∀ f, busSteps c { s with env := { s.env with pacing := restP, slices := restS } } = .fault f →
      exec (.hostRunFrame x) s = .fault f) ∧
    (∀ u, busSteps c { s with env := { s.env with pacing := restP, slices := restS } } = .next u →
      (c.map Prod.snd).sum = 0 → exec (.hostRunFrame x) s = .fault .engineStalled)

/-! ### Invariants and whole-machine rules -/

/-- The invariant of the block holds right after reset. -/
def Obligations.ResetStateIsLegal : Prop := State.reset.Inv

/-- Every step keeps the invariant: canonical stores within their sizes, table lengths, counter bounds, and a current
cache entry for every slot that is not dirty (R22, R25, R31, R32, R36, R165). -/
def Obligations.StepKeepsLegality : Prop := ∀ s t : State, s.Inv → step s = .next t → t.Inv

/-- R38: from a faulted state no instruction but a full re-initialisation takes a step, and a reserved selector neither. -/
def Obligations.FaultedStateTakesNoStep : Prop :=
  ∀ (s : State) (f : Fault), s.fault = some f →
    (∀ i, (∀ l, i ≠ .hostReset l) → exec i s = .fault f) ∧
    (∀ c rest, s.env.calls = c :: rest → (∀ l, decode s.cfg c ≠ .ok (.hostReset l)) → step s = .fault f) ∧
    (∀ l, launchOk l = true → ∃ t, exec (.hostReset l) s = .next t ∧ t.fault = none)

/-- R23, R24: no instruction but a full re-initialisation changes a ROM array, a decoded store or the configuration. -/
def Obligations.RomsAreNeverWritten : Prop :=
  ∀ (i : Instr) (s t : State), (∀ l, i ≠ .hostReset l) → exec i s = .next t →
    t.rom = s.rom ∧ t.gfx = s.gfx ∧ t.gfxSpr = s.gfxSpr ∧ t.cfg = s.cfg

/-- R30: the input registers are written by INPUT_SET and initialisation alone. -/
def Obligations.OnlyInputSetWritesInputs : Prop :=
  ∀ (i : Instr) (s t : State), (∀ l, i ≠ .hostReset l) → (∀ k v, i ≠ .hostInputSet k v) → exec i s = .next t →
    t.inputs = s.inputs

/-- R27, R28: outside initialisation and a whole frame, the bank index is written only by MEM.WR.BANKSEL and a scroll
window only by its own MEM.WR.SCROLL row, given as a row or as the pin word of a bus step. -/
def Obligations.BankAndScrollHaveOneWriter : Prop :=
  ∀ (i j : Instr) (s t : State), (∀ l, i ≠ .hostReset l) → (∀ x, i ≠ .hostRunFrame x) → exec i s = .next t →
    (i = j ∨ ∃ p n, i = .hostBusStep p n ∧ j = decodeBus s.cfg p n) → (∀ p n, j ≠ .hostBusStep p n) →
    ((∀ b, j ≠ .memWrBanksel b) → t.bankIndex = s.bankIndex) ∧
    ((∀ b, j ≠ .memWrScrollfg b) → t.scroll.fg = s.scroll.fg ∧ t.scrollX.fg = s.scrollX.fg) ∧
    ((∀ b, j ≠ .memWrScrollbg b) → t.scroll.bg = s.scroll.bg ∧ t.scrollX.bg = s.scrollX.bg)

/-- R26: a palette entry that is the expansion of its two bytes stays so through every step but a re-initialisation. -/
def Obligations.PaletteStaysCurrent : Prop :=
  ∀ (s t : State) (i : Nat), s.Inv → i < 1024 → step s = .next t →
    (∀ c rest l, s.env.calls = c :: rest → decode s.cfg c ≠ .ok (.hostReset l)) →
    PaletteCurrent s i → PaletteCurrent t i

/-- R29: a scroll offset that is the corrected value of its window stays so through every step but a re-initialisation. -/
def Obligations.ScrollStaysCurrent : Prop :=
  ∀ (s t : State) (k : ScrollLayer), step s = .next t →
    (∀ c rest l, s.env.calls = c :: rest → decode s.cfg c ≠ .ok (.hostReset l)) →
    ScrollCurrent s k → ScrollCurrent t k

/-- R209, R250: no host query, draw or input changes the timing state: the counters move with bus steps alone. -/
def Obligations.OnlyBusStepsMoveTime : Prop :=
  ∀ (i : Instr) (s t : State), (∀ p n, encode i ≠ .bus p n) → (∀ l, i ≠ .hostReset l) →
    (∀ p n, i ≠ .hostBusStep p n) → (∀ x, i ≠ .hostRunFrame x) → exec i s = .next t →
    t.timing = s.timing ∧ t.pinsOut = s.pinsOut
end

