-- ==== Sys2Proof/Laws/Decode.lean ====
section
/-! SUPPORT. The pin word taken apart and put together. -/

namespace Sys2Proof

/-- Every bit of a packed pin word, by its place in R80. -/
theorem getLsbD_pack (c : Ctl) (b : BusOperands) (i : Nat) :
    (pack c b).getLsbD i =
      if i < 16 then b.addr.getLsbD i
      else if i < 24 then b.data.getLsbD (i - 16)
      else if i = 24 then c.m1 else if i = 25 then c.mreq else if i = 26 then c.iorq
      else if i = 27 then c.rd else if i = 28 then c.wr else if i = 29 then b.p29
      else if i = 30 then b.p30 else if i = 31 then b.p31 else false := by
  by_cases h : i < 32
  · simp only [pack, BitVec.getLsbD_append, BitVec.getLsbD_ofBool]
    by_cases h16 : i < 16
    · simp [h16, show i < 24 by omega, show i < 25 by omega, show i < 26 by omega, show i < 27 by omega,
        show i < 28 by omega, show i < 29 by omega, show i < 30 by omega, show i < 31 by omega]
    · by_cases h24 : i < 24
      · simp [h16, h24, show i < 25 by omega, show i < 26 by omega, show i < 27 by omega,
          show i < 28 by omega, show i < 29 by omega, show i < 30 by omega, show i < 31 by omega]
      · have : i = 24 ∨ i = 25 ∨ i = 26 ∨ i = 27 ∨ i = 28 ∨ i = 29 ∨ i = 30 ∨ i = 31 := by omega
        rcases this with rfl | rfl | rfl | rfl | rfl | rfl | rfl | rfl <;> simp
  · rw [BitVec.getLsbD_of_ge _ _ (by omega)]
    simp [show ¬ i < 16 by omega, show ¬ i < 24 by omega, show i ≠ 24 by omega, show i ≠ 25 by omega,
      show i ≠ 26 by omega, show i ≠ 27 by omega, show i ≠ 28 by omega, show i ≠ 29 by omega, show i ≠ 30 by omega,
      show i ≠ 31 by omega]

@[simp] theorem Ctl.ofPins_pack (c : Ctl) (b : BusOperands) : Ctl.ofPins (pack c b) = c := by
  simp only [Ctl.ofPins, getLsbD_pack]
  rfl

@[simp] theorem addr_pack (c : Ctl) (b : BusOperands) : PinWord.addr (pack c b) = b.addr := by
  refine BitVec.eq_of_getLsbD_eq fun i hi => ?_
  simp [PinWord.addr, getLsbD_pack, hi]

@[simp] theorem data_pack (c : Ctl) (b : BusOperands) : PinWord.data (pack c b) = b.data := by
  refine BitVec.eq_of_getLsbD_eq fun i hi => ?_
  simp [PinWord.data, getLsbD_pack, hi, show 16 + i < 24 by omega]

@[simp] theorem int_pack (c : Ctl) (b : BusOperands) : PinWord.int (pack c b) = b.p30 := by
  simp only [PinWord.int, getLsbD_pack]
  rfl

@[simp] theorem BusOperands.ofPins_pack (c : Ctl) (b : BusOperands) (n : Nat) :
    BusOperands.ofPins (pack c b) n = { b with ticks := n } := by
  simp only [BusOperands.ofPins, addr_pack, data_pack, getLsbD_pack]
  rfl

/-- A pin word taken apart and put together again is the same word. -/
@[simp] theorem pack_ofPins (p : PinWord) (n : Nat) : pack (Ctl.ofPins p) (BusOperands.ofPins p n) = p := by
  refine BitVec.eq_of_getLsbD_eq fun i hi => ?_
  rw [getLsbD_pack]
  simp only [BusOperands.ofPins, Ctl.ofPins, PinWord.addr, PinWord.data, BitVec.getLsbD_extractLsb']
  split
  · simp [*]
  · split
    · rename_i h16 h24
      simp [show i - 16 < 8 by omega, show 16 + (i - 16) = i by omega]
    · have : i = 24 ∨ i = 25 ∨ i = 26 ∨ i = 27 ∨ i = 28 ∨ i = 29 ∨ i = 30 ∨ i = 31 := by omega
      rcases this with rfl | rfl | rfl | rfl | rfl | rfl | rfl | rfl <;> simp

end Sys2Proof
end

