-- ==== Sys2Proof/Laws/Memory.lean ====
section
/-! SUPPORT. Reading after writing, and the canonical form of a byte store. -/

namespace Sys2Proof.Machine

@[simp] theorem Memory.read_nil (a : Nat) : Memory.read [] a = 0 := rfl

@[simp] theorem Memory.read_cons (k : Nat) (b : Byte) (rest : Memory) (a : Nat) :
    Memory.read ((k, b) :: rest) a = if k = a then b else Memory.read rest a := rfl

/-- Below its first offset a store lists nothing. -/
theorem Memory.read_below {lo : Nat} {m : Memory} (h : Memory.wfFrom lo m = true) {a : Nat} (ha : a < lo) :
    Memory.read m a = 0 := by
  induction m generalizing lo with
  | nil => rfl
  | cons c rest ih =>
    obtain ⟨k, b⟩ := c
    simp only [Memory.wfFrom, Bool.and_eq_true, decide_eq_true_eq] at h
    rw [Memory.read_cons, if_neg (by omega)]
    exact ih h.2 (by omega)

theorem Memory.wfFrom_mono {lo lo' : Nat} {m : Memory} (hl : lo' ≤ lo) (h : Memory.wfFrom lo m = true) :
    Memory.wfFrom lo' m = true := by
  cases m with
  | nil => rfl
  | cons c rest =>
    obtain ⟨k, b⟩ := c
    simp only [Memory.wfFrom, Bool.and_eq_true, decide_eq_true_eq] at h ⊢
    exact ⟨⟨by omega, h.1.2⟩, h.2⟩

theorem Memory.wfFrom_put {lo a : Nat} {v : Byte} {rest : Memory} (hl : lo ≤ a)
    (h : Memory.wfFrom (a + 1) rest = true) : Memory.wfFrom lo (Memory.put a v rest) = true := by
  unfold Memory.put
  split
  · exact Memory.wfFrom_mono (by omega) h
  · rename_i hv
    simp only [Memory.wfFrom, Bool.and_eq_true, decide_eq_true_eq]
    exact ⟨⟨hl, hv⟩, h⟩

theorem Memory.wfFrom_write {lo : Nat} {m : Memory} {a : Nat} {v : Byte} (hl : lo ≤ a)
    (h : Memory.wfFrom lo m = true) : Memory.wfFrom lo (Memory.write m a v) = true := by
  induction m generalizing lo with
  | nil => exact Memory.wfFrom_put hl rfl
  | cons c rest ih =>
    obtain ⟨k, b⟩ := c
    simp only [Memory.wfFrom, Bool.and_eq_true, decide_eq_true_eq] at h
    unfold Memory.write
    split
    · refine Memory.wfFrom_put hl ?_
      simp only [Memory.wfFrom, Bool.and_eq_true, decide_eq_true_eq]
      exact ⟨⟨by omega, h.1.2⟩, h.2⟩
    · split
      · subst_vars; exact Memory.wfFrom_put hl h.2
      · simp only [Memory.wfFrom, Bool.and_eq_true, decide_eq_true_eq]
        exact ⟨h.1, ih (by omega) h.2⟩

/-- A write keeps the canonical form. -/
theorem Memory.wf_write {m : Memory} (a : Nat) (v : Byte) (h : m.wf = true) : (m.write a v).wf = true :=
  Memory.wfFrom_write (Nat.zero_le a) h

theorem Memory.read_put_same (a : Nat) (v : Byte) (rest : Memory) (h : Memory.read rest a = 0) :
    Memory.read (Memory.put a v rest) a = v := by
  unfold Memory.put
  split
  · rw [h]; exact Eq.symm ‹v = 0›
  · simp

theorem Memory.read_put_other {a x : Nat} (v : Byte) (rest : Memory) (hx : x ≠ a) :
    Memory.read (Memory.put a v rest) x = Memory.read rest x := by
  unfold Memory.put
  split
  · rfl
  · rw [Memory.read_cons, if_neg (Ne.symm hx)]

/-- A read after a write to the same offset gives the byte written. -/
theorem Memory.read_write_same {lo : Nat} {m : Memory} (a : Nat) (v : Byte) (h : Memory.wfFrom lo m = true) :
    (m.write a v).read a = v := by
  induction m generalizing lo with
  | nil => exact Memory.read_put_same a v [] rfl
  | cons c rest ih =>
    obtain ⟨k, b⟩ := c
    simp only [Memory.wfFrom, Bool.and_eq_true, decide_eq_true_eq] at h
    unfold Memory.write
    split
    · refine Memory.read_put_same a v _ ?_
      rw [Memory.read_cons, if_neg (by omega)]
      exact Memory.read_below h.2 (by omega)
    · split
      · subst_vars; exact Memory.read_put_same _ v _ (Memory.read_below h.2 (by omega))
      · rw [Memory.read_cons, if_neg (by omega)]
        exact ih h.2

/-- A write leaves every other offset alone. -/
theorem Memory.read_write_other (m : Memory) {a x : Nat} (v : Byte) (hx : x ≠ a) :
    (m.write a v).read x = m.read x := by
  induction m with
  | nil => exact Memory.read_put_other v [] hx
  | cons c rest ih =>
    obtain ⟨k, b⟩ := c
    unfold Memory.write
    split
    · exact Memory.read_put_other v _ hx
    · split
      · subst_vars
        rw [Memory.read_put_other v _ hx, Memory.read_cons, if_neg (Ne.symm hx)]
      · rw [Memory.read_cons, Memory.read_cons, ih]

theorem Memory.within_put {n a : Nat} {v : Byte} {rest : Memory} (ha : a < n) (h : Memory.within n rest = true) :
    Memory.within n (Memory.put a v rest) = true := by
  unfold Memory.put
  split
  · exact h
  · simp only [Memory.within, List.all_cons, Bool.and_eq_true, decide_eq_true_eq]
    exact ⟨ha, h⟩

/-- A write inside the store's size keeps the store within it. -/
theorem Memory.within_write {n : Nat} {m : Memory} {a : Nat} {v : Byte} (ha : a < n) (h : m.within n = true) :
    (m.write a v).within n = true := by
  induction m with
  | nil => exact Memory.within_put ha rfl
  | cons c rest ih =>
    obtain ⟨k, b⟩ := c
    simp only [Memory.within, List.all_cons, Bool.and_eq_true, decide_eq_true_eq] at h
    unfold Memory.write
    split
    · refine Memory.within_put ha ?_
      simp only [Memory.within, List.all_cons, Bool.and_eq_true, decide_eq_true_eq]
      exact h
    · split
      · exact Memory.within_put ha h.2
      · simp only [Memory.within, List.all_cons, Bool.and_eq_true, decide_eq_true_eq]
        exact ⟨h.1, ih h.2⟩

/-- Two canonical stores that read alike are the same list. -/
theorem Memory.ext_of_read {lo : Nat} {m m' : Memory} (h : Memory.wfFrom lo m = true)
    (h' : Memory.wfFrom lo m' = true) (hr : ∀ a, m.read a = m'.read a) : m = m' := by
  induction m generalizing lo m' with
  | nil =>
    cases m' with
    | nil => rfl
    | cons c rest =>
      obtain ⟨k, b⟩ := c
      simp only [Memory.wfFrom, Bool.and_eq_true, decide_eq_true_eq] at h'
      exact absurd (by simpa using (hr k).symm) h'.1.2
  | cons c rest ih =>
    obtain ⟨k, b⟩ := c
    simp only [Memory.wfFrom, Bool.and_eq_true, decide_eq_true_eq] at h
    cases m' with
    | nil => exact absurd (by simpa using hr k) h.1.2
    | cons c' rest' =>
      obtain ⟨k', b'⟩ := c'
      simp only [Memory.wfFrom, Bool.and_eq_true, decide_eq_true_eq] at h'
      have hk : k = k' := by
        rcases Nat.lt_trichotomy k k' with hlt | heq | hgt
        · have := hr k
          simp only [Memory.read_cons, if_neg (Nat.ne_of_gt hlt)] at this
          exact absurd (by simpa [Memory.read_below h'.2 (show k < k' + 1 by omega)] using this) h.1.2
        · exact heq
        · have := hr k'
          simp only [Memory.read_cons, if_neg (Nat.ne_of_gt hgt)] at this
          exact absurd (by simpa [Memory.read_below h.2 (show k' < k + 1 by omega)] using this.symm) h'.1.2
      subst hk
      have hb : b = b' := by simpa using hr k
      subst hb
      refine congrArg _ (ih h.2 h'.2 fun a => ?_)
      by_cases ha : k = a
      · subst ha
        rw [Memory.read_below h.2 (by omega), Memory.read_below h'.2 (by omega)]
      · simpa [Memory.read_cons, ha] using hr a

/-- A store made from a function is canonical. -/
theorem Memory.wfFrom_ofFn (f : Nat → Byte) (start count : Nat) :
    Memory.wfFrom start (Memory.ofFn f start count) = true := by
  induction count generalizing start with
  | zero => rfl
  | succ n ih => exact Memory.wfFrom_put (Nat.le_refl _) (ih (start + 1))

theorem Memory.within_ofFn (f : Nat → Byte) (start count : Nat) :
    (Memory.ofFn f start count).within (start + count) = true := by
  induction count generalizing start with
  | zero => rfl
  | succ n ih =>
    refine Memory.within_put (by omega) ?_
    have := ih (start + 1)
    rwa [show start + 1 + n = start + (n + 1) by omega] at this

/-- An image made from a function is well formed. -/
theorem imageOk_imageOf (size : Nat) (f : Nat → Byte) : imageOk (imageOf size f) = true := by
  have hw := Memory.within_ofFn f 0 size
  rw [Nat.zero_add] at hw
  simp only [imageOk, imageOf, Bool.and_eq_true]
  exact ⟨Memory.wfFrom_ofFn f 0 size, hw⟩

end Sys2Proof.Machine
end

