-- ==== Sys2Proof/Laws/State.lean ====
section
/-! SUPPORT. One lemma per field per update of State, so that no later proof unfolds a record update. -/

namespace Sys2Proof.Machine

@[simp] theorem PerTile.get_set {α : Type} (p : PerTile α) (l k : TileLayer) (v : α) :
    (p.set l v).get k = if k = l then v else p.get k := by
  cases l <;> cases k <;> rfl

@[simp] theorem PerScroll.get_set {α : Type} (p : PerScroll α) (l k : ScrollLayer) (v : α) :
    (p.set l v).get k = if k = l then v else p.get k := by
  cases l <;> cases k <;> rfl

/-! ### emit -/

@[simp] theorem State.emit_cfg (s : State) (o : Output) : (s.emit o).cfg = s.cfg := rfl
@[simp] theorem State.emit_rom (s : State) (o : Output) : (s.emit o).rom = s.rom := rfl
@[simp] theorem State.emit_gfx (s : State) (o : Output) : (s.emit o).gfx = s.gfx := rfl
@[simp] theorem State.emit_gfxSpr (s : State) (o : Output) : (s.emit o).gfxSpr = s.gfxSpr := rfl
@[simp] theorem State.emit_workRam (s : State) (o : Output) : (s.emit o).workRam = s.workRam := rfl
@[simp] theorem State.emit_tileRam (s : State) (o : Output) : (s.emit o).tileRam = s.tileRam := rfl
@[simp] theorem State.emit_spriteRam (s : State) (o : Output) : (s.emit o).spriteRam = s.spriteRam := rfl
@[simp] theorem State.emit_paletteRam (s : State) (o : Output) : (s.emit o).paletteRam = s.paletteRam := rfl
@[simp] theorem State.emit_palette (s : State) (o : Output) : (s.emit o).palette = s.palette := rfl
@[simp] theorem State.emit_bankIndex (s : State) (o : Output) : (s.emit o).bankIndex = s.bankIndex := rfl
@[simp] theorem State.emit_scroll (s : State) (o : Output) : (s.emit o).scroll = s.scroll := rfl
@[simp] theorem State.emit_scrollX (s : State) (o : Output) : (s.emit o).scrollX = s.scrollX := rfl
@[simp] theorem State.emit_inputs (s : State) (o : Output) : (s.emit o).inputs = s.inputs := rfl
@[simp] theorem State.emit_timing (s : State) (o : Output) : (s.emit o).timing = s.timing := rfl
@[simp] theorem State.emit_pinsOut (s : State) (o : Output) : (s.emit o).pinsOut = s.pinsOut := rfl
@[simp] theorem State.emit_dirty (s : State) (o : Output) : (s.emit o).dirty = s.dirty := rfl
@[simp] theorem State.emit_tileCache (s : State) (o : Output) : (s.emit o).tileCache = s.tileCache := rfl
@[simp] theorem State.emit_bitmap (s : State) (o : Output) : (s.emit o).bitmap = s.bitmap := rfl
@[simp] theorem State.emit_frame (s : State) (o : Output) : (s.emit o).frame = s.frame := rfl
@[simp] theorem State.emit_fault (s : State) (o : Output) : (s.emit o).fault = s.fault := rfl
@[simp] theorem State.emit_env (s : State) (o : Output) : (s.emit o).env = s.env := rfl
@[simp] theorem State.emit_outbox (s : State) (o : Output) : (s.emit o).outbox = s.outbox ++ [o] := rfl

/-! ### writeWork -/

@[simp] theorem State.writeWork_cfg (s : State) (off : Nat) (d : Byte) : (s.writeWork off d).cfg = s.cfg := rfl
@[simp] theorem State.writeWork_rom (s : State) (off : Nat) (d : Byte) : (s.writeWork off d).rom = s.rom := rfl
@[simp] theorem State.writeWork_gfx (s : State) (off : Nat) (d : Byte) : (s.writeWork off d).gfx = s.gfx := rfl
@[simp] theorem State.writeWork_gfxSpr (s : State) (off : Nat) (d : Byte) :
    (s.writeWork off d).gfxSpr = s.gfxSpr := rfl
@[simp] theorem State.writeWork_workRam (s : State) (off : Nat) (d : Byte) :
    (s.writeWork off d).workRam = s.workRam.write off d := rfl
@[simp] theorem State.writeWork_tileRam (s : State) (off : Nat) (d : Byte) :
    (s.writeWork off d).tileRam = s.tileRam := rfl
@[simp] theorem State.writeWork_spriteRam (s : State) (off : Nat) (d : Byte) :
    (s.writeWork off d).spriteRam = s.spriteRam := rfl
@[simp] theorem State.writeWork_paletteRam (s : State) (off : Nat) (d : Byte) :
    (s.writeWork off d).paletteRam = s.paletteRam := rfl
@[simp] theorem State.writeWork_palette (s : State) (off : Nat) (d : Byte) :
    (s.writeWork off d).palette = s.palette := rfl
@[simp] theorem State.writeWork_bankIndex (s : State) (off : Nat) (d : Byte) :
    (s.writeWork off d).bankIndex = s.bankIndex := rfl
@[simp] theorem State.writeWork_scroll (s : State) (off : Nat) (d : Byte) :
    (s.writeWork off d).scroll = s.scroll := rfl
@[simp] theorem State.writeWork_scrollX (s : State) (off : Nat) (d : Byte) :
    (s.writeWork off d).scrollX = s.scrollX := rfl
@[simp] theorem State.writeWork_inputs (s : State) (off : Nat) (d : Byte) :
    (s.writeWork off d).inputs = s.inputs := rfl
@[simp] theorem State.writeWork_timing (s : State) (off : Nat) (d : Byte) :
    (s.writeWork off d).timing = s.timing := rfl
@[simp] theorem State.writeWork_pinsOut (s : State) (off : Nat) (d : Byte) :
    (s.writeWork off d).pinsOut = s.pinsOut := rfl
@[simp] theorem State.writeWork_dirty (s : State) (off : Nat) (d : Byte) : (s.writeWork off d).dirty = s.dirty := rfl
@[simp] theorem State.writeWork_tileCache (s : State) (off : Nat) (d : Byte) :
    (s.writeWork off d).tileCache = s.tileCache := rfl
@[simp] theorem State.writeWork_bitmap (s : State) (off : Nat) (d : Byte) :
    (s.writeWork off d).bitmap = s.bitmap := rfl
@[simp] theorem State.writeWork_frame (s : State) (off : Nat) (d : Byte) : (s.writeWork off d).frame = s.frame := rfl
@[simp] theorem State.writeWork_fault (s : State) (off : Nat) (d : Byte) : (s.writeWork off d).fault = s.fault := rfl
@[simp] theorem State.writeWork_env (s : State) (off : Nat) (d : Byte) : (s.writeWork off d).env = s.env := rfl
@[simp] theorem State.writeWork_outbox (s : State) (off : Nat) (d : Byte) :
    (s.writeWork off d).outbox = s.outbox := rfl

/-! ### writeSprite -/

@[simp] theorem State.writeSprite_cfg (s : State) (off : Nat) (d : Byte) : (s.writeSprite off d).cfg = s.cfg := rfl
@[simp] theorem State.writeSprite_rom (s : State) (off : Nat) (d : Byte) : (s.writeSprite off d).rom = s.rom := rfl
@[simp] theorem State.writeSprite_gfx (s : State) (off : Nat) (d : Byte) : (s.writeSprite off d).gfx = s.gfx := rfl
@[simp] theorem State.writeSprite_gfxSpr (s : State) (off : Nat) (d : Byte) :
    (s.writeSprite off d).gfxSpr = s.gfxSpr := rfl
@[simp] theorem State.writeSprite_workRam (s : State) (off : Nat) (d : Byte) :
    (s.writeSprite off d).workRam = s.workRam := rfl
@[simp] theorem State.writeSprite_tileRam (s : State) (off : Nat) (d : Byte) :
    (s.writeSprite off d).tileRam = s.tileRam := rfl
@[simp] theorem State.writeSprite_spriteRam (s : State) (off : Nat) (d : Byte) :
    (s.writeSprite off d).spriteRam = s.spriteRam.write off d := rfl
@[simp] theorem State.writeSprite_paletteRam (s : State) (off : Nat) (d : Byte) :
    (s.writeSprite off d).paletteRam = s.paletteRam := rfl
@[simp] theorem State.writeSprite_palette (s : State) (off : Nat) (d : Byte) :
    (s.writeSprite off d).palette = s.palette := rfl
@[simp] theorem State.writeSprite_bankIndex (s : State) (off : Nat) (d : Byte) :
    (s.writeSprite off d).bankIndex = s.bankIndex := rfl
@[simp] theorem State.writeSprite_scroll (s : State) (off : Nat) (d : Byte) :
    (s.writeSprite off d).scroll = s.scroll := rfl
@[simp] theorem State.writeSprite_scrollX (s : State) (off : Nat) (d : Byte) :
    (s.writeSprite off d).scrollX = s.scrollX := rfl
@[simp] theorem State.writeSprite_inputs (s : State) (off : Nat) (d : Byte) :
    (s.writeSprite off d).inputs = s.inputs := rfl
@[simp] theorem State.writeSprite_timing (s : State) (off : Nat) (d : Byte) :
    (s.writeSprite off d).timing = s.timing := rfl
@[simp] theorem State.writeSprite_pinsOut (s : State) (off : Nat) (d : Byte) :
    (s.writeSprite off d).pinsOut = s.pinsOut := rfl
@[simp] theorem State.writeSprite_dirty (s : State) (off : Nat) (d : Byte) :
    (s.writeSprite off d).dirty = s.dirty := rfl
@[simp] theorem State.writeSprite_tileCache (s : State) (off : Nat) (d : Byte) :
    (s.writeSprite off d).tileCache = s.tileCache := rfl
@[simp] theorem State.writeSprite_bitmap (s : State) (off : Nat) (d : Byte) :
    (s.writeSprite off d).bitmap = s.bitmap := rfl
@[simp] theorem State.writeSprite_frame (s : State) (off : Nat) (d : Byte) :
    (s.writeSprite off d).frame = s.frame := rfl
@[simp] theorem State.writeSprite_fault (s : State) (off : Nat) (d : Byte) :
    (s.writeSprite off d).fault = s.fault := rfl
@[simp] theorem State.writeSprite_env (s : State) (off : Nat) (d : Byte) : (s.writeSprite off d).env = s.env := rfl
@[simp] theorem State.writeSprite_outbox (s : State) (off : Nat) (d : Byte) :
    (s.writeSprite off d).outbox = s.outbox := rfl

/-! ### writeTile -/

@[simp] theorem State.writeTile_cfg (s : State) (l : TileLayer) (off : Nat) (d : Byte) :
    (s.writeTile l off d).cfg = s.cfg := rfl
@[simp] theorem State.writeTile_rom (s : State) (l : TileLayer) (off : Nat) (d : Byte) :
    (s.writeTile l off d).rom = s.rom := rfl
@[simp] theorem State.writeTile_gfx (s : State) (l : TileLayer) (off : Nat) (d : Byte) :
    (s.writeTile l off d).gfx = s.gfx := rfl
@[simp] theorem State.writeTile_gfxSpr (s : State) (l : TileLayer) (off : Nat) (d : Byte) :
    (s.writeTile l off d).gfxSpr = s.gfxSpr := rfl
@[simp] theorem State.writeTile_workRam (s : State) (l : TileLayer) (off : Nat) (d : Byte) :
    (s.writeTile l off d).workRam = s.workRam := rfl
@[simp] theorem State.writeTile_tileRam (s : State) (l : TileLayer) (off : Nat) (d : Byte) :
    (s.writeTile l off d).tileRam = s.tileRam.set l ((s.tileRam.get l).write off d) := rfl
@[simp] theorem State.writeTile_spriteRam (s : State) (l : TileLayer) (off : Nat) (d : Byte) :
    (s.writeTile l off d).spriteRam = s.spriteRam := rfl
@[simp] theorem State.writeTile_paletteRam (s : State) (l : TileLayer) (off : Nat) (d : Byte) :
    (s.writeTile l off d).paletteRam = s.paletteRam := rfl
@[simp] theorem State.writeTile_palette (s : State) (l : TileLayer) (off : Nat) (d : Byte) :
    (s.writeTile l off d).palette = s.palette := rfl
@[simp] theorem State.writeTile_bankIndex (s : State) (l : TileLayer) (off : Nat) (d : Byte) :
    (s.writeTile l off d).bankIndex = s.bankIndex := rfl
@[simp] theorem State.writeTile_scroll (s : State) (l : TileLayer) (off : Nat) (d : Byte) :
    (s.writeTile l off d).scroll = s.scroll := rfl
@[simp] theorem State.writeTile_scrollX (s : State) (l : TileLayer) (off : Nat) (d : Byte) :
    (s.writeTile l off d).scrollX = s.scrollX := rfl
@[simp] theorem State.writeTile_inputs (s : State) (l : TileLayer) (off : Nat) (d : Byte) :
    (s.writeTile l off d).inputs = s.inputs := rfl
@[simp] theorem State.writeTile_timing (s : State) (l : TileLayer) (off : Nat) (d : Byte) :
    (s.writeTile l off d).timing = s.timing := rfl
@[simp] theorem State.writeTile_pinsOut (s : State) (l : TileLayer) (off : Nat) (d : Byte) :
    (s.writeTile l off d).pinsOut = s.pinsOut := rfl
@[simp] theorem State.writeTile_dirty (s : State) (l : TileLayer) (off : Nat) (d : Byte) :
    (s.writeTile l off d).dirty = s.dirty.set l ((s.dirty.get l).set (s.slotOf l off) true) := rfl
@[simp] theorem State.writeTile_tileCache (s : State) (l : TileLayer) (off : Nat) (d : Byte) :
    (s.writeTile l off d).tileCache = s.tileCache := rfl
@[simp] theorem State.writeTile_bitmap (s : State) (l : TileLayer) (off : Nat) (d : Byte) :
    (s.writeTile l off d).bitmap = s.bitmap := rfl
@[simp] theorem State.writeTile_frame (s : State) (l : TileLayer) (off : Nat) (d : Byte) :
    (s.writeTile l off d).frame = s.frame := rfl
@[simp] theorem State.writeTile_fault (s : State) (l : TileLayer) (off : Nat) (d : Byte) :
    (s.writeTile l off d).fault = s.fault := rfl
@[simp] theorem State.writeTile_env (s : State) (l : TileLayer) (off : Nat) (d : Byte) :
    (s.writeTile l off d).env = s.env := rfl
@[simp] theorem State.writeTile_outbox (s : State) (l : TileLayer) (off : Nat) (d : Byte) :
    (s.writeTile l off d).outbox = s.outbox ++ [.markTileDirty l (s.slotOf l off)] := rfl

/-! ### writePalette -/

@[simp] theorem State.writePalette_cfg (s : State) (off : Nat) (d : Byte) : (s.writePalette off d).cfg = s.cfg := rfl
@[simp] theorem State.writePalette_rom (s : State) (off : Nat) (d : Byte) : (s.writePalette off d).rom = s.rom := rfl
@[simp] theorem State.writePalette_gfx (s : State) (off : Nat) (d : Byte) : (s.writePalette off d).gfx = s.gfx := rfl
@[simp] theorem State.writePalette_gfxSpr (s : State) (off : Nat) (d : Byte) :
    (s.writePalette off d).gfxSpr = s.gfxSpr := rfl
@[simp] theorem State.writePalette_workRam (s : State) (off : Nat) (d : Byte) :
    (s.writePalette off d).workRam = s.workRam := rfl
@[simp] theorem State.writePalette_tileRam (s : State) (off : Nat) (d : Byte) :
    (s.writePalette off d).tileRam = s.tileRam := rfl
@[simp] theorem State.writePalette_spriteRam (s : State) (off : Nat) (d : Byte) :
    (s.writePalette off d).spriteRam = s.spriteRam := rfl
@[simp] theorem State.writePalette_paletteRam (s : State) (off : Nat) (d : Byte) :
    (s.writePalette off d).paletteRam = s.paletteRam.write off d := rfl
@[simp] theorem State.writePalette_palette (s : State) (off : Nat) (d : Byte) :
    (s.writePalette off d).palette = paletteUpdate s.palette off d := rfl
@[simp] theorem State.writePalette_bankIndex (s : State) (off : Nat) (d : Byte) :
    (s.writePalette off d).bankIndex = s.bankIndex := rfl
@[simp] theorem State.writePalette_scroll (s : State) (off : Nat) (d : Byte) :
    (s.writePalette off d).scroll = s.scroll := rfl
@[simp] theorem State.writePalette_scrollX (s : State) (off : Nat) (d : Byte) :
    (s.writePalette off d).scrollX = s.scrollX := rfl
@[simp] theorem State.writePalette_inputs (s : State) (off : Nat) (d : Byte) :
    (s.writePalette off d).inputs = s.inputs := rfl
@[simp] theorem State.writePalette_timing (s : State) (off : Nat) (d : Byte) :
    (s.writePalette off d).timing = s.timing := rfl
@[simp] theorem State.writePalette_pinsOut (s : State) (off : Nat) (d : Byte) :
    (s.writePalette off d).pinsOut = s.pinsOut := rfl
@[simp] theorem State.writePalette_dirty (s : State) (off : Nat) (d : Byte) :
    (s.writePalette off d).dirty = s.dirty := rfl
@[simp] theorem State.writePalette_tileCache (s : State) (off : Nat) (d : Byte) :
    (s.writePalette off d).tileCache = s.tileCache := rfl
@[simp] theorem State.writePalette_bitmap (s : State) (off : Nat) (d : Byte) :
    (s.writePalette off d).bitmap = s.bitmap := rfl
@[simp] theorem State.writePalette_frame (s : State) (off : Nat) (d : Byte) :
    (s.writePalette off d).frame = s.frame := rfl
@[simp] theorem State.writePalette_fault (s : State) (off : Nat) (d : Byte) :
    (s.writePalette off d).fault = s.fault := rfl
@[simp] theorem State.writePalette_env (s : State) (off : Nat) (d : Byte) : (s.writePalette off d).env = s.env := rfl
@[simp] theorem State.writePalette_outbox (s : State) (off : Nat) (d : Byte) :
    (s.writePalette off d).outbox = s.outbox := rfl

/-! ### writeScroll -/

@[simp] theorem State.writeScroll_cfg (s : State) (l : ScrollLayer) (k : Nat) (d : Byte) :
    (s.writeScroll l k d).cfg = s.cfg := rfl
@[simp] theorem State.writeScroll_rom (s : State) (l : ScrollLayer) (k : Nat) (d : Byte) :
    (s.writeScroll l k d).rom = s.rom := rfl
@[simp] theorem State.writeScroll_gfx (s : State) (l : ScrollLayer) (k : Nat) (d : Byte) :
    (s.writeScroll l k d).gfx = s.gfx := rfl
@[simp] theorem State.writeScroll_gfxSpr (s : State) (l : ScrollLayer) (k : Nat) (d : Byte) :
    (s.writeScroll l k d).gfxSpr = s.gfxSpr := rfl
@[simp] theorem State.writeScroll_workRam (s : State) (l : ScrollLayer) (k : Nat) (d : Byte) :
    (s.writeScroll l k d).workRam = s.workRam := rfl
@[simp] theorem State.writeScroll_tileRam (s : State) (l : ScrollLayer) (k : Nat) (d : Byte) :
    (s.writeScroll l k d).tileRam = s.tileRam := rfl
@[simp] theorem State.writeScroll_spriteRam (s : State) (l : ScrollLayer) (k : Nat) (d : Byte) :
    (s.writeScroll l k d).spriteRam = s.spriteRam := rfl
@[simp] theorem State.writeScroll_paletteRam (s : State) (l : ScrollLayer) (k : Nat) (d : Byte) :
    (s.writeScroll l k d).paletteRam = s.paletteRam := rfl
@[simp] theorem State.writeScroll_palette (s : State) (l : ScrollLayer) (k : Nat) (d : Byte) :
    (s.writeScroll l k d).palette = s.palette := rfl
@[simp] theorem State.writeScroll_bankIndex (s : State) (l : ScrollLayer) (k : Nat) (d : Byte) :
    (s.writeScroll l k d).bankIndex = s.bankIndex := rfl
@[simp] theorem State.writeScroll_scroll (s : State) (l : ScrollLayer) (k : Nat) (d : Byte) :
    (s.writeScroll l k d).scroll = s.scroll.set l ((s.scroll.get l).set k d) := rfl
@[simp] theorem State.writeScroll_scrollX (s : State) (l : ScrollLayer) (k : Nat) (d : Byte) :
    (s.writeScroll l k d).scrollX = s.scrollX.set l (scrollValue s.cfg ((s.scroll.get l).set k d)) := rfl
@[simp] theorem State.writeScroll_inputs (s : State) (l : ScrollLayer) (k : Nat) (d : Byte) :
    (s.writeScroll l k d).inputs = s.inputs := rfl
@[simp] theorem State.writeScroll_timing (s : State) (l : ScrollLayer) (k : Nat) (d : Byte) :
    (s.writeScroll l k d).timing = s.timing := rfl
@[simp] theorem State.writeScroll_pinsOut (s : State) (l : ScrollLayer) (k : Nat) (d : Byte) :
    (s.writeScroll l k d).pinsOut = s.pinsOut := rfl
@[simp] theorem State.writeScroll_dirty (s : State) (l : ScrollLayer) (k : Nat) (d : Byte) :
    (s.writeScroll l k d).dirty = s.dirty := rfl
@[simp] theorem State.writeScroll_tileCache (s : State) (l : ScrollLayer) (k : Nat) (d : Byte) :
    (s.writeScroll l k d).tileCache = s.tileCache := rfl
@[simp] theorem State.writeScroll_bitmap (s : State) (l : ScrollLayer) (k : Nat) (d : Byte) :
    (s.writeScroll l k d).bitmap = s.bitmap := rfl
@[simp] theorem State.writeScroll_frame (s : State) (l : ScrollLayer) (k : Nat) (d : Byte) :
    (s.writeScroll l k d).frame = s.frame := rfl
@[simp] theorem State.writeScroll_fault (s : State) (l : ScrollLayer) (k : Nat) (d : Byte) :
    (s.writeScroll l k d).fault = s.fault := rfl
@[simp] theorem State.writeScroll_env (s : State) (l : ScrollLayer) (k : Nat) (d : Byte) :
    (s.writeScroll l k d).env = s.env := rfl
@[simp] theorem State.writeScroll_outbox (s : State) (l : ScrollLayer) (k : Nat) (d : Byte) :
    (s.writeScroll l k d).outbox = s.outbox ++ [.setScrollX l (scrollValue s.cfg ((s.scroll.get l).set k d))] := rfl

/-! ### writeBank -/

@[simp] theorem State.writeBank_cfg (s : State) (d : Byte) : (s.writeBank d).cfg = s.cfg := rfl
@[simp] theorem State.writeBank_rom (s : State) (d : Byte) : (s.writeBank d).rom = s.rom := rfl
@[simp] theorem State.writeBank_gfx (s : State) (d : Byte) : (s.writeBank d).gfx = s.gfx := rfl
@[simp] theorem State.writeBank_gfxSpr (s : State) (d : Byte) : (s.writeBank d).gfxSpr = s.gfxSpr := rfl
@[simp] theorem State.writeBank_workRam (s : State) (d : Byte) : (s.writeBank d).workRam = s.workRam := rfl
@[simp] theorem State.writeBank_tileRam (s : State) (d : Byte) : (s.writeBank d).tileRam = s.tileRam := rfl
@[simp] theorem State.writeBank_spriteRam (s : State) (d : Byte) : (s.writeBank d).spriteRam = s.spriteRam := rfl
@[simp] theorem State.writeBank_paletteRam (s : State) (d : Byte) : (s.writeBank d).paletteRam = s.paletteRam := rfl
@[simp] theorem State.writeBank_palette (s : State) (d : Byte) : (s.writeBank d).palette = s.palette := rfl
@[simp] theorem State.writeBank_bankIndex (s : State) (d : Byte) :
    (s.writeBank d).bankIndex = d >>> s.cfg.bankShift := rfl
@[simp] theorem State.writeBank_scroll (s : State) (d : Byte) : (s.writeBank d).scroll = s.scroll := rfl
@[simp] theorem State.writeBank_scrollX (s : State) (d : Byte) : (s.writeBank d).scrollX = s.scrollX := rfl
@[simp] theorem State.writeBank_inputs (s : State) (d : Byte) : (s.writeBank d).inputs = s.inputs := rfl
@[simp] theorem State.writeBank_timing (s : State) (d : Byte) : (s.writeBank d).timing = s.timing := rfl
@[simp] theorem State.writeBank_pinsOut (s : State) (d : Byte) : (s.writeBank d).pinsOut = s.pinsOut := rfl
@[simp] theorem State.writeBank_dirty (s : State) (d : Byte) : (s.writeBank d).dirty = s.dirty := rfl
@[simp] theorem State.writeBank_tileCache (s : State) (d : Byte) : (s.writeBank d).tileCache = s.tileCache := rfl
@[simp] theorem State.writeBank_bitmap (s : State) (d : Byte) : (s.writeBank d).bitmap = s.bitmap := rfl
@[simp] theorem State.writeBank_frame (s : State) (d : Byte) : (s.writeBank d).frame = s.frame := rfl
@[simp] theorem State.writeBank_fault (s : State) (d : Byte) : (s.writeBank d).fault = s.fault := rfl
@[simp] theorem State.writeBank_env (s : State) (d : Byte) : (s.writeBank d).env = s.env := rfl
@[simp] theorem State.writeBank_outbox (s : State) (d : Byte) : (s.writeBank d).outbox = s.outbox := rfl

/-! ### setInput -/

@[simp] theorem State.setInput_cfg (s : State) (k : Nat) (v : Byte) : (s.setInput k v).cfg = s.cfg := rfl
@[simp] theorem State.setInput_rom (s : State) (k : Nat) (v : Byte) : (s.setInput k v).rom = s.rom := rfl
@[simp] theorem State.setInput_gfx (s : State) (k : Nat) (v : Byte) : (s.setInput k v).gfx = s.gfx := rfl
@[simp] theorem State.setInput_gfxSpr (s : State) (k : Nat) (v : Byte) : (s.setInput k v).gfxSpr = s.gfxSpr := rfl
@[simp] theorem State.setInput_workRam (s : State) (k : Nat) (v : Byte) : (s.setInput k v).workRam = s.workRam := rfl
@[simp] theorem State.setInput_tileRam (s : State) (k : Nat) (v : Byte) : (s.setInput k v).tileRam = s.tileRam := rfl
@[simp] theorem State.setInput_spriteRam (s : State) (k : Nat) (v : Byte) :
    (s.setInput k v).spriteRam = s.spriteRam := rfl
@[simp] theorem State.setInput_paletteRam (s : State) (k : Nat) (v : Byte) :
    (s.setInput k v).paletteRam = s.paletteRam := rfl
@[simp] theorem State.setInput_palette (s : State) (k : Nat) (v : Byte) : (s.setInput k v).palette = s.palette := rfl
@[simp] theorem State.setInput_bankIndex (s : State) (k : Nat) (v : Byte) :
    (s.setInput k v).bankIndex = s.bankIndex := rfl
@[simp] theorem State.setInput_scroll (s : State) (k : Nat) (v : Byte) : (s.setInput k v).scroll = s.scroll := rfl
@[simp] theorem State.setInput_scrollX (s : State) (k : Nat) (v : Byte) : (s.setInput k v).scrollX = s.scrollX := rfl
@[simp] theorem State.setInput_inputs (s : State) (k : Nat) (v : Byte) :
    (s.setInput k v).inputs = s.inputs.set k v := rfl
@[simp] theorem State.setInput_timing (s : State) (k : Nat) (v : Byte) : (s.setInput k v).timing = s.timing := rfl
@[simp] theorem State.setInput_pinsOut (s : State) (k : Nat) (v : Byte) : (s.setInput k v).pinsOut = s.pinsOut := rfl
@[simp] theorem State.setInput_dirty (s : State) (k : Nat) (v : Byte) : (s.setInput k v).dirty = s.dirty := rfl
@[simp] theorem State.setInput_tileCache (s : State) (k : Nat) (v : Byte) :
    (s.setInput k v).tileCache = s.tileCache := rfl
@[simp] theorem State.setInput_bitmap (s : State) (k : Nat) (v : Byte) : (s.setInput k v).bitmap = s.bitmap := rfl
@[simp] theorem State.setInput_frame (s : State) (k : Nat) (v : Byte) : (s.setInput k v).frame = s.frame := rfl
@[simp] theorem State.setInput_fault (s : State) (k : Nat) (v : Byte) : (s.setInput k v).fault = s.fault := rfl
@[simp] theorem State.setInput_env (s : State) (k : Nat) (v : Byte) : (s.setInput k v).env = s.env := rfl
@[simp] theorem State.setInput_outbox (s : State) (k : Nat) (v : Byte) : (s.setInput k v).outbox = s.outbox := rfl

/-! ### afterDraw -/

@[simp] theorem State.afterDraw_cfg (s : State) : s.afterDraw.cfg = s.cfg := rfl
@[simp] theorem State.afterDraw_rom (s : State) : s.afterDraw.rom = s.rom := rfl
@[simp] theorem State.afterDraw_gfx (s : State) : s.afterDraw.gfx = s.gfx := rfl
@[simp] theorem State.afterDraw_gfxSpr (s : State) : s.afterDraw.gfxSpr = s.gfxSpr := rfl
@[simp] theorem State.afterDraw_workRam (s : State) : s.afterDraw.workRam = s.workRam := rfl
@[simp] theorem State.afterDraw_tileRam (s : State) : s.afterDraw.tileRam = s.tileRam := rfl
@[simp] theorem State.afterDraw_spriteRam (s : State) : s.afterDraw.spriteRam = s.spriteRam := rfl
@[simp] theorem State.afterDraw_paletteRam (s : State) : s.afterDraw.paletteRam = s.paletteRam := rfl
@[simp] theorem State.afterDraw_palette (s : State) : s.afterDraw.palette = s.palette := rfl
@[simp] theorem State.afterDraw_bankIndex (s : State) : s.afterDraw.bankIndex = s.bankIndex := rfl
@[simp] theorem State.afterDraw_scroll (s : State) : s.afterDraw.scroll = s.scroll := rfl
@[simp] theorem State.afterDraw_scrollX (s : State) : s.afterDraw.scrollX = s.scrollX := rfl
@[simp] theorem State.afterDraw_inputs (s : State) : s.afterDraw.inputs = s.inputs := rfl
@[simp] theorem State.afterDraw_timing (s : State) : s.afterDraw.timing = s.timing := rfl
@[simp] theorem State.afterDraw_pinsOut (s : State) : s.afterDraw.pinsOut = s.pinsOut := rfl
@[simp] theorem State.afterDraw_dirty (s : State) : s.afterDraw.dirty = s.dirty := rfl
@[simp] theorem State.afterDraw_tileCache (s : State) : s.afterDraw.tileCache = s.tileCache := rfl
@[simp] theorem State.afterDraw_bitmap (s : State) : s.afterDraw.bitmap = s.bitmap := rfl
@[simp] theorem State.afterDraw_frame (s : State) : s.afterDraw.frame = s.frame := rfl
@[simp] theorem State.afterDraw_fault (s : State) : s.afterDraw.fault = s.fault := rfl
@[simp] theorem State.afterDraw_env (s : State) : s.afterDraw.env = { s.env with draws := s.env.draws + 1 } := rfl
@[simp] theorem State.afterDraw_outbox (s : State) : s.afterDraw.outbox = s.outbox := rfl

/-! ### advance -/

@[simp] theorem State.advance_cfg (s : State) (n : Nat) : (s.advance n).cfg = s.cfg := rfl
@[simp] theorem State.advance_rom (s : State) (n : Nat) : (s.advance n).rom = s.rom := rfl
@[simp] theorem State.advance_gfx (s : State) (n : Nat) : (s.advance n).gfx = s.gfx := rfl
@[simp] theorem State.advance_gfxSpr (s : State) (n : Nat) : (s.advance n).gfxSpr = s.gfxSpr := rfl
@[simp] theorem State.advance_workRam (s : State) (n : Nat) : (s.advance n).workRam = s.workRam := rfl
@[simp] theorem State.advance_tileRam (s : State) (n : Nat) : (s.advance n).tileRam = s.tileRam := rfl
@[simp] theorem State.advance_spriteRam (s : State) (n : Nat) : (s.advance n).spriteRam = s.spriteRam := rfl
@[simp] theorem State.advance_paletteRam (s : State) (n : Nat) : (s.advance n).paletteRam = s.paletteRam := rfl
@[simp] theorem State.advance_palette (s : State) (n : Nat) : (s.advance n).palette = s.palette := rfl
@[simp] theorem State.advance_bankIndex (s : State) (n : Nat) : (s.advance n).bankIndex = s.bankIndex := rfl
@[simp] theorem State.advance_scroll (s : State) (n : Nat) : (s.advance n).scroll = s.scroll := rfl
@[simp] theorem State.advance_scrollX (s : State) (n : Nat) : (s.advance n).scrollX = s.scrollX := rfl
@[simp] theorem State.advance_inputs (s : State) (n : Nat) : (s.advance n).inputs = s.inputs := rfl
@[simp] theorem State.advance_timing (s : State) (n : Nat) :
    (s.advance n).timing = s.timing.advance s.cfg.tpf s.cfg.vblankTicks n := rfl
@[simp] theorem State.advance_pinsOut (s : State) (n : Nat) : (s.advance n).pinsOut = s.pinsOut := rfl
@[simp] theorem State.advance_dirty (s : State) (n : Nat) : (s.advance n).dirty = s.dirty := rfl
@[simp] theorem State.advance_tileCache (s : State) (n : Nat) : (s.advance n).tileCache = s.tileCache := rfl
@[simp] theorem State.advance_bitmap (s : State) (n : Nat) : (s.advance n).bitmap = s.bitmap := rfl
@[simp] theorem State.advance_frame (s : State) (n : Nat) : (s.advance n).frame = s.frame := rfl
@[simp] theorem State.advance_fault (s : State) (n : Nat) : (s.advance n).fault = s.fault := rfl
@[simp] theorem State.advance_env (s : State) (n : Nat) : (s.advance n).env = s.env := rfl
@[simp] theorem State.advance_outbox (s : State) (n : Nat) : (s.advance n).outbox = s.outbox := rfl

/-! ### setAck -/

@[simp] theorem State.setAck_cfg (s : State) : s.setAck.cfg = s.cfg := rfl
@[simp] theorem State.setAck_rom (s : State) : s.setAck.rom = s.rom := rfl
@[simp] theorem State.setAck_gfx (s : State) : s.setAck.gfx = s.gfx := rfl
@[simp] theorem State.setAck_gfxSpr (s : State) : s.setAck.gfxSpr = s.gfxSpr := rfl
@[simp] theorem State.setAck_workRam (s : State) : s.setAck.workRam = s.workRam := rfl
@[simp] theorem State.setAck_tileRam (s : State) : s.setAck.tileRam = s.tileRam := rfl
@[simp] theorem State.setAck_spriteRam (s : State) : s.setAck.spriteRam = s.spriteRam := rfl
@[simp] theorem State.setAck_paletteRam (s : State) : s.setAck.paletteRam = s.paletteRam := rfl
@[simp] theorem State.setAck_palette (s : State) : s.setAck.palette = s.palette := rfl
@[simp] theorem State.setAck_bankIndex (s : State) : s.setAck.bankIndex = s.bankIndex := rfl
@[simp] theorem State.setAck_scroll (s : State) : s.setAck.scroll = s.scroll := rfl
@[simp] theorem State.setAck_scrollX (s : State) : s.setAck.scrollX = s.scrollX := rfl
@[simp] theorem State.setAck_inputs (s : State) : s.setAck.inputs = s.inputs := rfl
@[simp] theorem State.setAck_timing (s : State) : s.setAck.timing = { s.timing with intAck := true } := rfl
@[simp] theorem State.setAck_pinsOut (s : State) : s.setAck.pinsOut = s.pinsOut := rfl
@[simp] theorem State.setAck_dirty (s : State) : s.setAck.dirty = s.dirty := rfl
@[simp] theorem State.setAck_tileCache (s : State) : s.setAck.tileCache = s.tileCache := rfl
@[simp] theorem State.setAck_bitmap (s : State) : s.setAck.bitmap = s.bitmap := rfl
@[simp] theorem State.setAck_frame (s : State) : s.setAck.frame = s.frame := rfl
@[simp] theorem State.setAck_fault (s : State) : s.setAck.fault = s.fault := rfl
@[simp] theorem State.setAck_env (s : State) : s.setAck.env = s.env := rfl
@[simp] theorem State.setAck_outbox (s : State) : s.setAck.outbox = s.outbox := rfl

/-! ### busReturn -/

@[simp] theorem State.busReturn_cfg (s : State) (c : Ctl) (b : BusOperands) (d : Byte) :
    (s.busReturn c b d).cfg = s.cfg := rfl
@[simp] theorem State.busReturn_rom (s : State) (c : Ctl) (b : BusOperands) (d : Byte) :
    (s.busReturn c b d).rom = s.rom := rfl
@[simp] theorem State.busReturn_gfx (s : State) (c : Ctl) (b : BusOperands) (d : Byte) :
    (s.busReturn c b d).gfx = s.gfx := rfl
@[simp] theorem State.busReturn_gfxSpr (s : State) (c : Ctl) (b : BusOperands) (d : Byte) :
    (s.busReturn c b d).gfxSpr = s.gfxSpr := rfl
@[simp] theorem State.busReturn_workRam (s : State) (c : Ctl) (b : BusOperands) (d : Byte) :
    (s.busReturn c b d).workRam = s.workRam := rfl
@[simp] theorem State.busReturn_tileRam (s : State) (c : Ctl) (b : BusOperands) (d : Byte) :
    (s.busReturn c b d).tileRam = s.tileRam := rfl
@[simp] theorem State.busReturn_spriteRam (s : State) (c : Ctl) (b : BusOperands) (d : Byte) :
    (s.busReturn c b d).spriteRam = s.spriteRam := rfl
@[simp] theorem State.busReturn_paletteRam (s : State) (c : Ctl) (b : BusOperands) (d : Byte) :
    (s.busReturn c b d).paletteRam = s.paletteRam := rfl
@[simp] theorem State.busReturn_palette (s : State) (c : Ctl) (b : BusOperands) (d : Byte) :
    (s.busReturn c b d).palette = s.palette := rfl
@[simp] theorem State.busReturn_bankIndex (s : State) (c : Ctl) (b : BusOperands) (d : Byte) :
    (s.busReturn c b d).bankIndex = s.bankIndex := rfl
@[simp] theorem State.busReturn_scroll (s : State) (c : Ctl) (b : BusOperands) (d : Byte) :
    (s.busReturn c b d).scroll = s.scroll := rfl
@[simp] theorem State.busReturn_scrollX (s : State) (c : Ctl) (b : BusOperands) (d : Byte) :
    (s.busReturn c b d).scrollX = s.scrollX := rfl
@[simp] theorem State.busReturn_inputs (s : State) (c : Ctl) (b : BusOperands) (d : Byte) :
    (s.busReturn c b d).inputs = s.inputs := rfl
@[simp] theorem State.busReturn_timing (s : State) (c : Ctl) (b : BusOperands) (d : Byte) :
    (s.busReturn c b d).timing = s.timing := rfl
@[simp] theorem State.busReturn_pinsOut (s : State) (c : Ctl) (b : BusOperands) (d : Byte) :
    (s.busReturn c b d).pinsOut = pinsBack c b d s.timing := rfl
@[simp] theorem State.busReturn_dirty (s : State) (c : Ctl) (b : BusOperands) (d : Byte) :
    (s.busReturn c b d).dirty = s.dirty := rfl
@[simp] theorem State.busReturn_tileCache (s : State) (c : Ctl) (b : BusOperands) (d : Byte) :
    (s.busReturn c b d).tileCache = s.tileCache := rfl
@[simp] theorem State.busReturn_bitmap (s : State) (c : Ctl) (b : BusOperands) (d : Byte) :
    (s.busReturn c b d).bitmap = s.bitmap := rfl
@[simp] theorem State.busReturn_frame (s : State) (c : Ctl) (b : BusOperands) (d : Byte) :
    (s.busReturn c b d).frame = s.frame := rfl
@[simp] theorem State.busReturn_fault (s : State) (c : Ctl) (b : BusOperands) (d : Byte) :
    (s.busReturn c b d).fault = s.fault := rfl
@[simp] theorem State.busReturn_env (s : State) (c : Ctl) (b : BusOperands) (d : Byte) :
    (s.busReturn c b d).env = s.env := rfl
@[simp] theorem State.busReturn_outbox (s : State) (c : Ctl) (b : BusOperands) (d : Byte) :
    (s.busReturn c b d).outbox = s.outbox ++ [.pins (pinsBack c b d s.timing)] := rfl

/-! ### clearFrame -/

@[simp] theorem State.clearFrame_cfg (s : State) : s.clearFrame.cfg = s.cfg := rfl
@[simp] theorem State.clearFrame_rom (s : State) : s.clearFrame.rom = s.rom := rfl
@[simp] theorem State.clearFrame_gfx (s : State) : s.clearFrame.gfx = s.gfx := rfl
@[simp] theorem State.clearFrame_gfxSpr (s : State) : s.clearFrame.gfxSpr = s.gfxSpr := rfl
@[simp] theorem State.clearFrame_workRam (s : State) : s.clearFrame.workRam = s.workRam := rfl
@[simp] theorem State.clearFrame_tileRam (s : State) : s.clearFrame.tileRam = s.tileRam := rfl
@[simp] theorem State.clearFrame_spriteRam (s : State) : s.clearFrame.spriteRam = s.spriteRam := rfl
@[simp] theorem State.clearFrame_paletteRam (s : State) : s.clearFrame.paletteRam = s.paletteRam := rfl
@[simp] theorem State.clearFrame_palette (s : State) : s.clearFrame.palette = s.palette := rfl
@[simp] theorem State.clearFrame_bankIndex (s : State) : s.clearFrame.bankIndex = s.bankIndex := rfl
@[simp] theorem State.clearFrame_scroll (s : State) : s.clearFrame.scroll = s.scroll := rfl
@[simp] theorem State.clearFrame_scrollX (s : State) : s.clearFrame.scrollX = s.scrollX := rfl
@[simp] theorem State.clearFrame_inputs (s : State) : s.clearFrame.inputs = s.inputs := rfl
@[simp] theorem State.clearFrame_timing (s : State) : s.clearFrame.timing = s.timing := rfl
@[simp] theorem State.clearFrame_pinsOut (s : State) : s.clearFrame.pinsOut = s.pinsOut := rfl
@[simp] theorem State.clearFrame_dirty (s : State) : s.clearFrame.dirty = s.dirty := rfl
@[simp] theorem State.clearFrame_tileCache (s : State) : s.clearFrame.tileCache = s.tileCache := rfl
@[simp] theorem State.clearFrame_bitmap (s : State) : s.clearFrame.bitmap = s.bitmap := rfl
@[simp] theorem State.clearFrame_frame (s : State) :
    s.clearFrame.frame = tabulate s.cfg.visH s.cfg.visW fun _ _ => ⟨0, 0, 0, 0⟩ := rfl
@[simp] theorem State.clearFrame_fault (s : State) : s.clearFrame.fault = s.fault := rfl
@[simp] theorem State.clearFrame_env (s : State) : s.clearFrame.env = s.env := rfl
@[simp] theorem State.clearFrame_outbox (s : State) : s.clearFrame.outbox = s.outbox := rfl

/-! ### fillBitmap -/

@[simp] theorem State.fillBitmap_cfg (s : State) : s.fillBitmap.cfg = s.cfg := rfl
@[simp] theorem State.fillBitmap_rom (s : State) : s.fillBitmap.rom = s.rom := rfl
@[simp] theorem State.fillBitmap_gfx (s : State) : s.fillBitmap.gfx = s.gfx := rfl
@[simp] theorem State.fillBitmap_gfxSpr (s : State) : s.fillBitmap.gfxSpr = s.gfxSpr := rfl
@[simp] theorem State.fillBitmap_workRam (s : State) : s.fillBitmap.workRam = s.workRam := rfl
@[simp] theorem State.fillBitmap_tileRam (s : State) : s.fillBitmap.tileRam = s.tileRam := rfl
@[simp] theorem State.fillBitmap_spriteRam (s : State) : s.fillBitmap.spriteRam = s.spriteRam := rfl
@[simp] theorem State.fillBitmap_paletteRam (s : State) : s.fillBitmap.paletteRam = s.paletteRam := rfl
@[simp] theorem State.fillBitmap_palette (s : State) : s.fillBitmap.palette = s.palette := rfl
@[simp] theorem State.fillBitmap_bankIndex (s : State) : s.fillBitmap.bankIndex = s.bankIndex := rfl
@[simp] theorem State.fillBitmap_scroll (s : State) : s.fillBitmap.scroll = s.scroll := rfl
@[simp] theorem State.fillBitmap_scrollX (s : State) : s.fillBitmap.scrollX = s.scrollX := rfl
@[simp] theorem State.fillBitmap_inputs (s : State) : s.fillBitmap.inputs = s.inputs := rfl
@[simp] theorem State.fillBitmap_timing (s : State) : s.fillBitmap.timing = s.timing := rfl
@[simp] theorem State.fillBitmap_pinsOut (s : State) : s.fillBitmap.pinsOut = s.pinsOut := rfl
@[simp] theorem State.fillBitmap_dirty (s : State) : s.fillBitmap.dirty = s.dirty := rfl
@[simp] theorem State.fillBitmap_tileCache (s : State) : s.fillBitmap.tileCache = s.tileCache := rfl
@[simp] theorem State.fillBitmap_bitmap (s : State) :
    s.fillBitmap.bitmap = tabulate s.cfg.bmpH s.cfg.bmpW fun _ _ => s.cfg.bgConst := rfl
@[simp] theorem State.fillBitmap_frame (s : State) : s.fillBitmap.frame = s.frame := rfl
@[simp] theorem State.fillBitmap_fault (s : State) : s.fillBitmap.fault = s.fault := rfl
@[simp] theorem State.fillBitmap_env (s : State) : s.fillBitmap.env = s.env := rfl
@[simp] theorem State.fillBitmap_outbox (s : State) : s.fillBitmap.outbox = s.outbox := rfl

/-! ### decodeDirty -/

@[simp] theorem State.decodeDirty_cfg (s : State) (l : TileLayer) : (s.decodeDirty l).cfg = s.cfg := rfl
@[simp] theorem State.decodeDirty_rom (s : State) (l : TileLayer) : (s.decodeDirty l).rom = s.rom := rfl
@[simp] theorem State.decodeDirty_gfx (s : State) (l : TileLayer) : (s.decodeDirty l).gfx = s.gfx := rfl
@[simp] theorem State.decodeDirty_gfxSpr (s : State) (l : TileLayer) : (s.decodeDirty l).gfxSpr = s.gfxSpr := rfl
@[simp] theorem State.decodeDirty_workRam (s : State) (l : TileLayer) : (s.decodeDirty l).workRam = s.workRam := rfl
@[simp] theorem State.decodeDirty_tileRam (s : State) (l : TileLayer) : (s.decodeDirty l).tileRam = s.tileRam := rfl
@[simp] theorem State.decodeDirty_spriteRam (s : State) (l : TileLayer) :
    (s.decodeDirty l).spriteRam = s.spriteRam := rfl
@[simp] theorem State.decodeDirty_paletteRam (s : State) (l : TileLayer) :
    (s.decodeDirty l).paletteRam = s.paletteRam := rfl
@[simp] theorem State.decodeDirty_palette (s : State) (l : TileLayer) : (s.decodeDirty l).palette = s.palette := rfl
@[simp] theorem State.decodeDirty_bankIndex (s : State) (l : TileLayer) :
    (s.decodeDirty l).bankIndex = s.bankIndex := rfl
@[simp] theorem State.decodeDirty_scroll (s : State) (l : TileLayer) : (s.decodeDirty l).scroll = s.scroll := rfl
@[simp] theorem State.decodeDirty_scrollX (s : State) (l : TileLayer) : (s.decodeDirty l).scrollX = s.scrollX := rfl
@[simp] theorem State.decodeDirty_inputs (s : State) (l : TileLayer) : (s.decodeDirty l).inputs = s.inputs := rfl
@[simp] theorem State.decodeDirty_timing (s : State) (l : TileLayer) : (s.decodeDirty l).timing = s.timing := rfl
@[simp] theorem State.decodeDirty_pinsOut (s : State) (l : TileLayer) : (s.decodeDirty l).pinsOut = s.pinsOut := rfl
@[simp] theorem State.decodeDirty_dirty (s : State) (l : TileLayer) :
    (s.decodeDirty l).dirty = s.dirty.set l (List.replicate (s.cfg.half l) false) := rfl
@[simp] theorem State.decodeDirty_tileCache (s : State) (l : TileLayer) :
    (s.decodeDirty l).tileCache = s.tileCache.set l ((List.range (s.cfg.half l)).map (s.cacheEntry l)) := rfl
@[simp] theorem State.decodeDirty_bitmap (s : State) (l : TileLayer) : (s.decodeDirty l).bitmap = s.bitmap := rfl
@[simp] theorem State.decodeDirty_frame (s : State) (l : TileLayer) : (s.decodeDirty l).frame = s.frame := rfl
@[simp] theorem State.decodeDirty_fault (s : State) (l : TileLayer) : (s.decodeDirty l).fault = s.fault := rfl
@[simp] theorem State.decodeDirty_env (s : State) (l : TileLayer) : (s.decodeDirty l).env = s.env := rfl
@[simp] theorem State.decodeDirty_outbox (s : State) (l : TileLayer) :
    (s.decodeDirty l).outbox = s.outbox ++ (s.dirtySlots l).map fun i => .tileInfo l i (s.tileInfo l i) := rfl

/-! ### paintTiles -/

@[simp] theorem State.paintTiles_cfg (s : State) (l : TileLayer) : (s.paintTiles l).cfg = s.cfg := rfl
@[simp] theorem State.paintTiles_rom (s : State) (l : TileLayer) : (s.paintTiles l).rom = s.rom := rfl
@[simp] theorem State.paintTiles_gfx (s : State) (l : TileLayer) : (s.paintTiles l).gfx = s.gfx := rfl
@[simp] theorem State.paintTiles_gfxSpr (s : State) (l : TileLayer) : (s.paintTiles l).gfxSpr = s.gfxSpr := rfl
@[simp] theorem State.paintTiles_workRam (s : State) (l : TileLayer) : (s.paintTiles l).workRam = s.workRam := rfl
@[simp] theorem State.paintTiles_tileRam (s : State) (l : TileLayer) : (s.paintTiles l).tileRam = s.tileRam := rfl
@[simp] theorem State.paintTiles_spriteRam (s : State) (l : TileLayer) :
    (s.paintTiles l).spriteRam = s.spriteRam := rfl
@[simp] theorem State.paintTiles_paletteRam (s : State) (l : TileLayer) :
    (s.paintTiles l).paletteRam = s.paletteRam := rfl
@[simp] theorem State.paintTiles_palette (s : State) (l : TileLayer) : (s.paintTiles l).palette = s.palette := rfl
@[simp] theorem State.paintTiles_bankIndex (s : State) (l : TileLayer) :
    (s.paintTiles l).bankIndex = s.bankIndex := rfl
@[simp] theorem State.paintTiles_scroll (s : State) (l : TileLayer) : (s.paintTiles l).scroll = s.scroll := rfl
@[simp] theorem State.paintTiles_scrollX (s : State) (l : TileLayer) : (s.paintTiles l).scrollX = s.scrollX := rfl
@[simp] theorem State.paintTiles_inputs (s : State) (l : TileLayer) : (s.paintTiles l).inputs = s.inputs := rfl
@[simp] theorem State.paintTiles_timing (s : State) (l : TileLayer) : (s.paintTiles l).timing = s.timing := rfl
@[simp] theorem State.paintTiles_pinsOut (s : State) (l : TileLayer) : (s.paintTiles l).pinsOut = s.pinsOut := rfl
@[simp] theorem State.paintTiles_dirty (s : State) (l : TileLayer) : (s.paintTiles l).dirty = s.dirty := rfl
@[simp] theorem State.paintTiles_tileCache (s : State) (l : TileLayer) :
    (s.paintTiles l).tileCache = s.tileCache := rfl
@[simp] theorem State.paintTiles_bitmap (s : State) (l : TileLayer) :
    (s.paintTiles l).bitmap = tabulate s.cfg.bmpH s.cfg.bmpW (s.tilePixel l) := rfl
@[simp] theorem State.paintTiles_frame (s : State) (l : TileLayer) : (s.paintTiles l).frame = s.frame := rfl
@[simp] theorem State.paintTiles_fault (s : State) (l : TileLayer) : (s.paintTiles l).fault = s.fault := rfl
@[simp] theorem State.paintTiles_env (s : State) (l : TileLayer) : (s.paintTiles l).env = s.env := rfl
@[simp] theorem State.paintTiles_outbox (s : State) (l : TileLayer) : (s.paintTiles l).outbox = s.outbox := rfl

/-! ### renderSprites -/

@[simp] theorem State.renderSprites_cfg (s : State) : s.renderSprites.cfg = s.cfg := rfl
@[simp] theorem State.renderSprites_rom (s : State) : s.renderSprites.rom = s.rom := rfl
@[simp] theorem State.renderSprites_gfx (s : State) : s.renderSprites.gfx = s.gfx := rfl
@[simp] theorem State.renderSprites_gfxSpr (s : State) : s.renderSprites.gfxSpr = s.gfxSpr := rfl
@[simp] theorem State.renderSprites_workRam (s : State) : s.renderSprites.workRam = s.workRam := rfl
@[simp] theorem State.renderSprites_tileRam (s : State) : s.renderSprites.tileRam = s.tileRam := rfl
@[simp] theorem State.renderSprites_spriteRam (s : State) : s.renderSprites.spriteRam = s.spriteRam := rfl
@[simp] theorem State.renderSprites_paletteRam (s : State) : s.renderSprites.paletteRam = s.paletteRam := rfl
@[simp] theorem State.renderSprites_palette (s : State) : s.renderSprites.palette = s.palette := rfl
@[simp] theorem State.renderSprites_bankIndex (s : State) : s.renderSprites.bankIndex = s.bankIndex := rfl
@[simp] theorem State.renderSprites_scroll (s : State) : s.renderSprites.scroll = s.scroll := rfl
@[simp] theorem State.renderSprites_scrollX (s : State) : s.renderSprites.scrollX = s.scrollX := rfl
@[simp] theorem State.renderSprites_inputs (s : State) : s.renderSprites.inputs = s.inputs := rfl
@[simp] theorem State.renderSprites_timing (s : State) : s.renderSprites.timing = s.timing := rfl
@[simp] theorem State.renderSprites_pinsOut (s : State) : s.renderSprites.pinsOut = s.pinsOut := rfl
@[simp] theorem State.renderSprites_dirty (s : State) : s.renderSprites.dirty = s.dirty := rfl
@[simp] theorem State.renderSprites_tileCache (s : State) : s.renderSprites.tileCache = s.tileCache := rfl
@[simp] theorem State.renderSprites_bitmap (s : State) :
    s.renderSprites.bitmap = tabulate s.cfg.bmpH s.cfg.bmpW s.spritePixel := rfl
@[simp] theorem State.renderSprites_frame (s : State) : s.renderSprites.frame = s.frame := rfl
@[simp] theorem State.renderSprites_fault (s : State) : s.renderSprites.fault = s.fault := rfl
@[simp] theorem State.renderSprites_env (s : State) : s.renderSprites.env = s.env := rfl
@[simp] theorem State.renderSprites_outbox (s : State) : s.renderSprites.outbox = s.outbox := rfl

/-! ### beginCall -/

@[simp] theorem State.beginCall_cfg (s : State) (rest : List Call) : (s.beginCall rest).cfg = s.cfg := rfl
@[simp] theorem State.beginCall_rom (s : State) (rest : List Call) : (s.beginCall rest).rom = s.rom := rfl
@[simp] theorem State.beginCall_gfx (s : State) (rest : List Call) : (s.beginCall rest).gfx = s.gfx := rfl
@[simp] theorem State.beginCall_gfxSpr (s : State) (rest : List Call) : (s.beginCall rest).gfxSpr = s.gfxSpr := rfl
@[simp] theorem State.beginCall_workRam (s : State) (rest : List Call) : (s.beginCall rest).workRam = s.workRam := rfl
@[simp] theorem State.beginCall_tileRam (s : State) (rest : List Call) : (s.beginCall rest).tileRam = s.tileRam := rfl
@[simp] theorem State.beginCall_spriteRam (s : State) (rest : List Call) :
    (s.beginCall rest).spriteRam = s.spriteRam := rfl
@[simp] theorem State.beginCall_paletteRam (s : State) (rest : List Call) :
    (s.beginCall rest).paletteRam = s.paletteRam := rfl
@[simp] theorem State.beginCall_palette (s : State) (rest : List Call) : (s.beginCall rest).palette = s.palette := rfl
@[simp] theorem State.beginCall_bankIndex (s : State) (rest : List Call) :
    (s.beginCall rest).bankIndex = s.bankIndex := rfl
@[simp] theorem State.beginCall_scroll (s : State) (rest : List Call) : (s.beginCall rest).scroll = s.scroll := rfl
@[simp] theorem State.beginCall_scrollX (s : State) (rest : List Call) : (s.beginCall rest).scrollX = s.scrollX := rfl
@[simp] theorem State.beginCall_inputs (s : State) (rest : List Call) : (s.beginCall rest).inputs = s.inputs := rfl
@[simp] theorem State.beginCall_timing (s : State) (rest : List Call) : (s.beginCall rest).timing = s.timing := rfl
@[simp] theorem State.beginCall_pinsOut (s : State) (rest : List Call) : (s.beginCall rest).pinsOut = s.pinsOut := rfl
@[simp] theorem State.beginCall_dirty (s : State) (rest : List Call) : (s.beginCall rest).dirty = s.dirty := rfl
@[simp] theorem State.beginCall_tileCache (s : State) (rest : List Call) :
    (s.beginCall rest).tileCache = s.tileCache := rfl
@[simp] theorem State.beginCall_bitmap (s : State) (rest : List Call) : (s.beginCall rest).bitmap = s.bitmap := rfl
@[simp] theorem State.beginCall_frame (s : State) (rest : List Call) : (s.beginCall rest).frame = s.frame := rfl
@[simp] theorem State.beginCall_fault (s : State) (rest : List Call) : (s.beginCall rest).fault = s.fault := rfl
@[simp] theorem State.beginCall_env (s : State) (rest : List Call) :
    (s.beginCall rest).env = { s.env with calls := rest } := rfl
@[simp] theorem State.beginCall_outbox (s : State) (rest : List Call) : (s.beginCall rest).outbox = [] := rfl

/-! ### afterFault -/

@[simp] theorem State.afterFault_cfg (s : State) (f : Fault) : (s.afterFault f).cfg = s.cfg := rfl
@[simp] theorem State.afterFault_rom (s : State) (f : Fault) : (s.afterFault f).rom = s.rom := rfl
@[simp] theorem State.afterFault_gfx (s : State) (f : Fault) : (s.afterFault f).gfx = s.gfx := rfl
@[simp] theorem State.afterFault_gfxSpr (s : State) (f : Fault) : (s.afterFault f).gfxSpr = s.gfxSpr := rfl
@[simp] theorem State.afterFault_workRam (s : State) (f : Fault) : (s.afterFault f).workRam = s.workRam := rfl
@[simp] theorem State.afterFault_tileRam (s : State) (f : Fault) : (s.afterFault f).tileRam = s.tileRam := rfl
@[simp] theorem State.afterFault_spriteRam (s : State) (f : Fault) : (s.afterFault f).spriteRam = s.spriteRam := rfl
@[simp] theorem State.afterFault_paletteRam (s : State) (f : Fault) :
    (s.afterFault f).paletteRam = s.paletteRam := rfl
@[simp] theorem State.afterFault_palette (s : State) (f : Fault) : (s.afterFault f).palette = s.palette := rfl
@[simp] theorem State.afterFault_bankIndex (s : State) (f : Fault) : (s.afterFault f).bankIndex = s.bankIndex := rfl
@[simp] theorem State.afterFault_scroll (s : State) (f : Fault) : (s.afterFault f).scroll = s.scroll := rfl
@[simp] theorem State.afterFault_scrollX (s : State) (f : Fault) : (s.afterFault f).scrollX = s.scrollX := rfl
@[simp] theorem State.afterFault_inputs (s : State) (f : Fault) : (s.afterFault f).inputs = s.inputs := rfl
@[simp] theorem State.afterFault_timing (s : State) (f : Fault) : (s.afterFault f).timing = s.timing := rfl
@[simp] theorem State.afterFault_pinsOut (s : State) (f : Fault) : (s.afterFault f).pinsOut = s.pinsOut := rfl
@[simp] theorem State.afterFault_dirty (s : State) (f : Fault) : (s.afterFault f).dirty = s.dirty := rfl
@[simp] theorem State.afterFault_tileCache (s : State) (f : Fault) : (s.afterFault f).tileCache = s.tileCache := rfl
@[simp] theorem State.afterFault_bitmap (s : State) (f : Fault) : (s.afterFault f).bitmap = s.bitmap := rfl
@[simp] theorem State.afterFault_frame (s : State) (f : Fault) : (s.afterFault f).frame = s.frame := rfl
@[simp] theorem State.afterFault_fault (s : State) (f : Fault) : (s.afterFault f).fault = some f := rfl
@[simp] theorem State.afterFault_env (s : State) (f : Fault) : (s.afterFault f).env = s.env := rfl
@[simp] theorem State.afterFault_outbox (s : State) (f : Fault) : (s.afterFault f).outbox = s.outbox := rfl

/-! ### afterPacing -/

@[simp] theorem State.afterPacing_cfg (s : State) : s.afterPacing.cfg = s.cfg := by
  unfold State.afterPacing; split <;> rfl
@[simp] theorem State.afterPacing_rom (s : State) : s.afterPacing.rom = s.rom := by
  unfold State.afterPacing; split <;> rfl
@[simp] theorem State.afterPacing_gfx (s : State) : s.afterPacing.gfx = s.gfx := by
  unfold State.afterPacing; split <;> rfl
@[simp] theorem State.afterPacing_gfxSpr (s : State) : s.afterPacing.gfxSpr = s.gfxSpr := by
  unfold State.afterPacing; split <;> rfl
@[simp] theorem State.afterPacing_workRam (s : State) : s.afterPacing.workRam = s.workRam := by
  unfold State.afterPacing; split <;> rfl
@[simp] theorem State.afterPacing_tileRam (s : State) : s.afterPacing.tileRam = s.tileRam := by
  unfold State.afterPacing; split <;> rfl
@[simp] theorem State.afterPacing_spriteRam (s : State) : s.afterPacing.spriteRam = s.spriteRam := by
  unfold State.afterPacing; split <;> rfl
@[simp] theorem State.afterPacing_paletteRam (s : State) : s.afterPacing.paletteRam = s.paletteRam := by
  unfold State.afterPacing; split <;> rfl
@[simp] theorem State.afterPacing_palette (s : State) : s.afterPacing.palette = s.palette := by
  unfold State.afterPacing; split <;> rfl
@[simp] theorem State.afterPacing_bankIndex (s : State) : s.afterPacing.bankIndex = s.bankIndex := by
  unfold State.afterPacing; split <;> rfl
@[simp] theorem State.afterPacing_scroll (s : State) : s.afterPacing.scroll = s.scroll := by
  unfold State.afterPacing; split <;> rfl
@[simp] theorem State.afterPacing_scrollX (s : State) : s.afterPacing.scrollX = s.scrollX := by
  unfold State.afterPacing; split <;> rfl
@[simp] theorem State.afterPacing_inputs (s : State) : s.afterPacing.inputs = s.inputs := by
  unfold State.afterPacing; split <;> rfl
@[simp] theorem State.afterPacing_timing (s : State) : s.afterPacing.timing = s.timing := by
  unfold State.afterPacing; split <;> rfl
@[simp] theorem State.afterPacing_pinsOut (s : State) : s.afterPacing.pinsOut = s.pinsOut := by
  unfold State.afterPacing; split <;> rfl
@[simp] theorem State.afterPacing_dirty (s : State) : s.afterPacing.dirty = s.dirty := by
  unfold State.afterPacing; split <;> rfl
@[simp] theorem State.afterPacing_tileCache (s : State) : s.afterPacing.tileCache = s.tileCache := by
  unfold State.afterPacing; split <;> rfl
@[simp] theorem State.afterPacing_bitmap (s : State) : s.afterPacing.bitmap = s.bitmap := by
  unfold State.afterPacing; split <;> rfl
@[simp] theorem State.afterPacing_frame (s : State) : s.afterPacing.frame = s.frame := by
  unfold State.afterPacing; split <;> rfl
@[simp] theorem State.afterPacing_fault (s : State) : s.afterPacing.fault = s.fault := by
  unfold State.afterPacing; split <;> rfl
@[simp] theorem State.afterPacing_outbox (s : State) : s.afterPacing.outbox = s.outbox := by
  unfold State.afterPacing; split <;> rfl

/-! ### afterSlice -/

@[simp] theorem State.afterSlice_cfg (s : State) : s.afterSlice.cfg = s.cfg := by
  unfold State.afterSlice; split <;> rfl
@[simp] theorem State.afterSlice_rom (s : State) : s.afterSlice.rom = s.rom := by
  unfold State.afterSlice; split <;> rfl
@[simp] theorem State.afterSlice_gfx (s : State) : s.afterSlice.gfx = s.gfx := by
  unfold State.afterSlice; split <;> rfl
@[simp] theorem State.afterSlice_gfxSpr (s : State) : s.afterSlice.gfxSpr = s.gfxSpr := by
  unfold State.afterSlice; split <;> rfl
@[simp] theorem State.afterSlice_workRam (s : State) : s.afterSlice.workRam = s.workRam := by
  unfold State.afterSlice; split <;> rfl
@[simp] theorem State.afterSlice_tileRam (s : State) : s.afterSlice.tileRam = s.tileRam := by
  unfold State.afterSlice; split <;> rfl
@[simp] theorem State.afterSlice_spriteRam (s : State) : s.afterSlice.spriteRam = s.spriteRam := by
  unfold State.afterSlice; split <;> rfl
@[simp] theorem State.afterSlice_paletteRam (s : State) : s.afterSlice.paletteRam = s.paletteRam := by
  unfold State.afterSlice; split <;> rfl
@[simp] theorem State.afterSlice_palette (s : State) : s.afterSlice.palette = s.palette := by
  unfold State.afterSlice; split <;> rfl
@[simp] theorem State.afterSlice_bankIndex (s : State) : s.afterSlice.bankIndex = s.bankIndex := by
  unfold State.afterSlice; split <;> rfl
@[simp] theorem State.afterSlice_scroll (s : State) : s.afterSlice.scroll = s.scroll := by
  unfold State.afterSlice; split <;> rfl
@[simp] theorem State.afterSlice_scrollX (s : State) : s.afterSlice.scrollX = s.scrollX := by
  unfold State.afterSlice; split <;> rfl
@[simp] theorem State.afterSlice_inputs (s : State) : s.afterSlice.inputs = s.inputs := by
  unfold State.afterSlice; split <;> rfl
@[simp] theorem State.afterSlice_timing (s : State) : s.afterSlice.timing = s.timing := by
  unfold State.afterSlice; split <;> rfl
@[simp] theorem State.afterSlice_pinsOut (s : State) : s.afterSlice.pinsOut = s.pinsOut := by
  unfold State.afterSlice; split <;> rfl
@[simp] theorem State.afterSlice_dirty (s : State) : s.afterSlice.dirty = s.dirty := by
  unfold State.afterSlice; split <;> rfl
@[simp] theorem State.afterSlice_tileCache (s : State) : s.afterSlice.tileCache = s.tileCache := by
  unfold State.afterSlice; split <;> rfl
@[simp] theorem State.afterSlice_bitmap (s : State) : s.afterSlice.bitmap = s.bitmap := by
  unfold State.afterSlice; split <;> rfl
@[simp] theorem State.afterSlice_frame (s : State) : s.afterSlice.frame = s.frame := by
  unfold State.afterSlice; split <;> rfl
@[simp] theorem State.afterSlice_fault (s : State) : s.afterSlice.fault = s.fault := by
  unfold State.afterSlice; split <;> rfl
@[simp] theorem State.afterSlice_outbox (s : State) : s.afterSlice.outbox = s.outbox := by
  unfold State.afterSlice; split <;> rfl

end Sys2Proof.Machine
end

