-- ==== Sys2Proof/Laws/Ops.lean ====
section
/-! SUPPORT. What each shared operation can do, said once: raising and sequencing, a bus cycle, the stores, the palette,
the timing advance, tile information and rectangles. -/

namespace Sys2Proof.Machine

/-! ### Raising and sequencing -/

theorem running_of_none {s : State} (h : s.fault = none) (k : State → Answer) : running s k = k s := by
  simp only [running, h]

theorem running_of_some {s : State} {f : Fault} (h : s.fault = some f) (k : State → Answer) :
    running s k = .fault f := by
  simp only [running, h, raise]

theorem running_next {s t : State} {k : State → Answer} (h : running s k = .next t) :
    s.fault = none ∧ k s = .next t := by
  cases hf : s.fault with
  | none => exact ⟨rfl, by rwa [running_of_none hf] at h⟩
  | some f => rw [running_of_some hf] at h; cases h

@[simp] theorem thenDo_next_eq (s : State) (k : State → Answer) : thenDo (.next s) k = k s := rfl
@[simp] theorem thenDo_fault (f : Fault) (k : State → Answer) : thenDo (.fault f) k = .fault f := rfl
@[simp] theorem thenDo_refused (r : Refusal) (k : State → Answer) : thenDo (.refused r) k = .refused r := rfl

theorem thenDo_next {o : Answer} {k : State → Answer} {t : State} (h : thenDo o k = .next t) :
    ∃ u, o = .next u ∧ k u = .next t := by
  cases o with
  | next u => exact ⟨u, rfl, h⟩
  | fault f => cases h
  | refused r => cases h

/-! ### A bus cycle -/

theorem busCycle_of_none {s : State} (h : s.fault = none) (c : Ctl) (b : BusOperands) (d : State → Byte)
    (op : State → State) :
    busCycle c b d op s = .next ((op (s.advance b.ticks)).busReturn c b (d (s.advance b.ticks))) :=
  running_of_none h _

theorem busCycle_of_some {s : State} {f : Fault} (h : s.fault = some f) (c : Ctl) (b : BusOperands)
    (d : State → Byte) (op : State → State) : busCycle c b d op s = .fault f :=
  running_of_some h _

theorem busCycle_next {s t : State} {c : Ctl} {b : BusOperands} {d : State → Byte} {op : State → State}
    (h : busCycle c b d op s = .next t) :
    s.fault = none ∧ t = (op (s.advance b.ticks)).busReturn c b (d (s.advance b.ticks)) := by
  obtain ⟨hf, hk⟩ := running_next h
  exact ⟨hf, (Host.Outcome.next.inj hk).symm⟩

/-! ### Stores -/

/-- Where two states have the same arrays they have the same bytes. -/
theorem byteAt_congr {s t : State} (h : ∀ st, t.store st = s.store st) (st : Store) (off : Nat) :
    t.byteAt st off = s.byteAt st off := by
  simp only [State.byteAt, h]

theorem store_eq_of_arrays {s t : State} (h1 : t.rom = s.rom) (h2 : t.workRam = s.workRam)
    (h3 : t.tileRam = s.tileRam) (h4 : t.spriteRam = s.spriteRam) (h5 : t.paletteRam = s.paletteRam) (st : Store) :
    t.store st = s.store st := by
  cases st with
  | rom r => cases r <;> simp only [State.store, h1]
  | work => exact h2
  | tile l => simp only [State.store, h3]
  | sprite => exact h4
  | palette => exact h5

@[simp] theorem store_advance (s : State) (n : Nat) (st : Store) : (s.advance n).store st = s.store st :=
  store_eq_of_arrays rfl rfl rfl rfl rfl st

@[simp] theorem store_busReturn (s : State) (c : Ctl) (b : BusOperands) (d : Byte) (st : Store) :
    (s.busReturn c b d).store st = s.store st :=
  store_eq_of_arrays rfl rfl rfl rfl rfl st

@[simp] theorem store_emit (s : State) (o : Output) (st : Store) : (s.emit o).store st = s.store st :=
  store_eq_of_arrays rfl rfl rfl rfl rfl st

@[simp] theorem store_writeScroll (s : State) (l : ScrollLayer) (k : Nat) (d : Byte) (st : Store) :
    (s.writeScroll l k d).store st = s.store st :=
  store_eq_of_arrays rfl rfl rfl rfl rfl st

@[simp] theorem store_writeBank (s : State) (d : Byte) (st : Store) : (s.writeBank d).store st = s.store st :=
  store_eq_of_arrays rfl rfl rfl rfl rfl st

@[simp] theorem store_setInput (s : State) (k : Nat) (v : Byte) (st : Store) :
    (s.setInput k v).store st = s.store st :=
  store_eq_of_arrays rfl rfl rfl rfl rfl st

@[simp] theorem store_setAck (s : State) (st : Store) : s.setAck.store st = s.store st :=
  store_eq_of_arrays rfl rfl rfl rfl rfl st

@[simp] theorem store_afterDraw (s : State) (st : Store) : s.afterDraw.store st = s.store st :=
  store_eq_of_arrays rfl rfl rfl rfl rfl st

@[simp] theorem store_skip (s : State) (st : Store) : (skip s).store st = s.store st := rfl

theorem store_writeWork (s : State) (off : Nat) (d : Byte) (st : Store) :
    (s.writeWork off d).store st = if st = .work then (s.store .work).write off d else s.store st := by
  cases st with
  | rom r => cases r <;> rfl
  | _ => rfl

theorem store_writeSprite (s : State) (off : Nat) (d : Byte) (st : Store) :
    (s.writeSprite off d).store st = if st = .sprite then (s.store .sprite).write off d else s.store st := by
  cases st with
  | rom r => cases r <;> rfl
  | _ => rfl

theorem store_writePalette (s : State) (off : Nat) (d : Byte) (st : Store) :
    (s.writePalette off d).store st = if st = .palette then (s.store .palette).write off d else s.store st := by
  cases st with
  | rom r => cases r <;> rfl
  | _ => rfl

theorem store_writeTile (s : State) (l : TileLayer) (off : Nat) (d : Byte) (st : Store) :
    (s.writeTile l off d).store st = if st = .tile l then (s.store (.tile l)).write off d else s.store st := by
  cases st with
  | rom r => cases r <;> rfl
  | tile k => cases k <;> cases l <;> rfl
  | _ => rfl

/-- The bytes of a state one of whose arrays took a write. -/
theorem byteAt_of_write {s t : State} {w : Store} {off : Nat} {d : Byte} (hw : (s.store w).wf = true)
    (h : ∀ st, t.store st = if st = w then (s.store w).write off d else s.store st) (st : Store) (a : Nat) :
    t.byteAt st a = if st = w ∧ a = off then d else s.byteAt st a := by
  simp only [State.byteAt, h]
  by_cases hst : st = w
  · subst hst
    by_cases ha : a = off
    · subst ha
      simpa using Memory.read_write_same a d hw
    · simpa [ha] using Memory.read_write_other (s.store st) d ha
  · simp [hst]

/-! ### Palette -/

theorem dupHi_toNat (b : Byte) : (dupHi b).toNat = 17 * (b.toNat / 16) := by
  revert b; decide

theorem dupLo_toNat (b : Byte) : (dupLo b).toNat = 17 * (b.toNat % 16) := by
  revert b; decide

/-- R140: the bytes of the packed word, the lowest first, are R, G, B, A. -/
theorem packColour_bytes (c : RGBA) :
    (packColour c).extractLsb' 0 8 = c.r ∧ (packColour c).extractLsb' 8 8 = c.g ∧
      (packColour c).extractLsb' 16 8 = c.b ∧ (packColour c).extractLsb' 24 8 = c.a := by
  refine ⟨?_, ?_, ?_, ?_⟩ <;> ext i hi <;> interval_cases i <;> simp [packColour, BitVec.getLsbD_of_ge]

/-- R140: a packed word determines its colour. -/
theorem packColour_injective {c d : RGBA} (h : packColour c = packColour d) : c = d := by
  obtain ⟨hr, hg, hb, ha⟩ := packColour_bytes c
  obtain ⟨kr, kg, kb, ka⟩ := packColour_bytes d
  rw [h] at hr hg hb ha
  rw [RGBA.mk.injEq]
  exact ⟨hr ▸ kr, hg ▸ kg, hb ▸ kb, ha ▸ ka⟩

@[simp] theorem length_paletteUpdate (p : List RGBA) (off : Nat) (b : Byte) :
    (paletteUpdate p off b).length = p.length := by
  simp [paletteUpdate]

theorem colourAt_paletteUpdate (p : List RGBA) (off : Nat) (b : Byte) (i : Nat) (hi : off / 2 < p.length) :
    colourAt (paletteUpdate p off b) i = if i = off / 2 then recolour off b (colourAt p i) else colourAt p i := by
  unfold colourAt paletteUpdate
  by_cases h : i = off / 2
  · subst h; simp [hi, colourAt]
  · simp [h, List.getElem?_set_ne (Ne.symm h)]

/-! ### The timing advance -/

theorem Timing.advance_opens {tpf vb n : Nat} {t : Timing} (h : t.vsyncTicks - n ≤ 0) :
    t.advance tpf vb n = ⟨t.vsyncTicks - n + tpf, vb, false⟩ := by
  simp only [Timing.advance, if_pos h]

theorem Timing.advance_runs {tpf vb n : Nat} {t : Timing} (h : 0 < t.vsyncTicks - n) :
    t.advance tpf vb n =
      ⟨t.vsyncTicks - n, if 0 < t.vblankTicks then max 0 (t.vblankTicks - n) else t.vblankTicks, t.intAck⟩ := by
  simp only [Timing.advance, if_neg (show ¬ t.vsyncTicks - n ≤ 0 by omega)]
  split
  · rw [Timing.mk.injEq]
    refine ⟨rfl, ?_, rfl⟩
    split <;> omega
  · rfl

@[simp] theorem Timing.intLine_iff (t : Timing) : t.intLine = true ↔ 0 < t.vblankTicks ∧ t.intAck = false := by
  simp [Timing.intLine]

/-! ### Tile information -/

theorem tileInfo_code (s : State) (l : TileLayer) (i : Nat) :
    (s.tileInfo l i).code = (s.byteAt (.tile l) (i + s.cfg.half l)).toNat % 2 ^ s.cfg.codeBits.get l * 256
      + (s.byteAt (.tile l) i).toNat := by
  simp only [State.tileInfo, Nat.and_two_pow_sub_one_eq_mod]
  rw [← Nat.shiftLeft_add_eq_or_of_lt (s.byteAt (.tile l) i).isLt, Nat.shiftLeft_eq]

theorem tileInfo_color (s : State) (l : TileLayer) (i : Nat) :
    (s.tileInfo l i).color = (s.byteAt (.tile l) (i + s.cfg.half l)).toNat / 16 := by
  simp only [State.tileInfo, Nat.shiftRight_eq_div_pow]

/-- Tile information depends on the layer's array and the configuration alone. -/
theorem tileInfo_congr {s t : State} (hc : t.cfg = s.cfg) (l : TileLayer)
    (hb : ∀ off, t.byteAt (.tile l) off = s.byteAt (.tile l) off) (i : Nat) : t.tileInfo l i = s.tileInfo l i := by
  simp only [State.tileInfo, hc, hb]

/-! ### Rectangles -/

theorem hasShape_tabulate {α : Type} (h w : Nat) (f : Nat → Nat → α) : HasShape h w (tabulate h w f) := by
  constructor
  · simp [tabulate]
  · intro row hr
    simp only [tabulate, List.mem_map] at hr
    obtain ⟨y, -, rfl⟩ := hr
    simp

theorem getD_tabulate {α : Type} {h w : Nat} (f : Nat → Nat → α) {y x : Nat} (hy : y < h) (hx : x < w) (d : α) :
    ((tabulate h w f).getD y []).getD x d = f y x := by
  simp [tabulate, hy, hx]

theorem pixelAt_tabulate {h w : Nat} (f : Nat → Nat → Nat) {y x : Nat} (hy : y < h) (hx : x < w) :
    pixelAt (tabulate h w f) y x = f y x :=
  getD_tabulate f hy hx 0

end Sys2Proof.Machine
end

