-- ==== Sys2Proof/Laws/Bus.lean ====
section
/-! SUPPORT. What a bus step can do, said once: every bus step that completes advances the timing, does one of nine
operations on the state, and returns the pins. -/

namespace Sys2Proof.Machine

/-- The operations of the decoded rows. -/
inductive BusOp where
  | nothing
  | work (off : Nat)
  | tile (l : TileLayer) (off : Nat)
  | sprite (off : Nat)
  | palette (off : Nat)
  | scroll (l : ScrollLayer) (k : Nat)
  | bank
  | ack
deriving DecidableEq, Repr

def BusOp.apply : BusOp → Byte → State → State
  | .nothing, _, s => s
  | .work off, d, s => s.writeWork off d
  | .tile l off, d, s => s.writeTile l off d
  | .sprite off, d, s => s.writeSprite off d
  | .palette off, d, s => s.writePalette off d
  | .scroll l k, d, s => s.writeScroll l k d
  | .bank, d, s => s.writeBank d
  | .ack, _, s => s.setAck.afterDraw

/-- The offset of the operation lies inside its store or window. -/
def BusOp.Fits (cfg : Config) : BusOp → Prop
  | .work off => off < cfg.workRam.size
  | .tile l off => off < (cfg.tileRam.get l).size
  | .sprite off => off < cfg.spriteRam.size
  | .palette off => off < cfg.paletteRam.size
  | .scroll _ k => k < 3
  | _ => True

/-! ### What the operations leave alone -/

@[simp] theorem BusOp.apply_cfg (o : BusOp) (d : Byte) (s : State) : (o.apply d s).cfg = s.cfg := by
  cases o <;> rfl
@[simp] theorem BusOp.apply_rom (o : BusOp) (d : Byte) (s : State) : (o.apply d s).rom = s.rom := by
  cases o <;> rfl
@[simp] theorem BusOp.apply_gfx (o : BusOp) (d : Byte) (s : State) : (o.apply d s).gfx = s.gfx := by
  cases o <;> rfl
@[simp] theorem BusOp.apply_gfxSpr (o : BusOp) (d : Byte) (s : State) : (o.apply d s).gfxSpr = s.gfxSpr := by
  cases o <;> rfl
@[simp] theorem BusOp.apply_inputs (o : BusOp) (d : Byte) (s : State) : (o.apply d s).inputs = s.inputs := by
  cases o <;> rfl
@[simp] theorem BusOp.apply_tileCache (o : BusOp) (d : Byte) (s : State) : (o.apply d s).tileCache = s.tileCache := by
  cases o <;> rfl
@[simp] theorem BusOp.apply_bitmap (o : BusOp) (d : Byte) (s : State) : (o.apply d s).bitmap = s.bitmap := by
  cases o <;> rfl
@[simp] theorem BusOp.apply_frame (o : BusOp) (d : Byte) (s : State) : (o.apply d s).frame = s.frame := by
  cases o <;> rfl
@[simp] theorem BusOp.apply_fault (o : BusOp) (d : Byte) (s : State) : (o.apply d s).fault = s.fault := by
  cases o <;> rfl

theorem BusOp.apply_timing (o : BusOp) (d : Byte) (s : State) :
    (o.apply d s).timing = if o = .ack then { s.timing with intAck := true } else s.timing := by
  cases o <;> rfl

theorem BusOp.apply_bankIndex (o : BusOp) (d : Byte) (s : State) (h : o ≠ .bank) :
    (o.apply d s).bankIndex = s.bankIndex := by
  cases o <;> first | rfl | exact absurd rfl h

theorem BusOp.apply_scroll (o : BusOp) (d : Byte) (s : State) (l : ScrollLayer) (h : ∀ k, o ≠ .scroll l k) :
    (o.apply d s).scroll.get l = s.scroll.get l ∧ (o.apply d s).scrollX.get l = s.scrollX.get l := by
  cases o with
  | scroll m k =>
    have hm : l ≠ m := fun e => h k (by rw [e])
    simp [BusOp.apply, hm]
  | _ => exact ⟨rfl, rfl⟩

theorem BusOp.apply_palette (o : BusOp) (d : Byte) (s : State) (h : ∀ off, o ≠ .palette off) :
    (o.apply d s).palette = s.palette := by
  cases o <;> first | rfl | exact absurd rfl (h _)

theorem BusOp.apply_dirty (o : BusOp) (d : Byte) (s : State) (h : ∀ l off, o ≠ .tile l off) :
    (o.apply d s).dirty = s.dirty := by
  cases o <;> first | rfl | exact absurd rfl (h _ _)

/-- The store an operation writes, and where. -/
def BusOp.target : BusOp → Option (Store × Nat)
  | .work off => some (.work, off)
  | .tile l off => some (.tile l, off)
  | .sprite off => some (.sprite, off)
  | .palette off => some (.palette, off)
  | _ => none

theorem BusOp.apply_store_none (o : BusOp) (d : Byte) (s : State) (h : o.target = none) (st : Store) :
    (o.apply d s).store st = s.store st := by
  cases o with
  | work off => cases h
  | tile l off => cases h
  | sprite off => cases h
  | palette off => cases h
  | _ => simp [BusOp.apply]

theorem BusOp.apply_store_some (o : BusOp) (d : Byte) (s : State) {w : Store} {off : Nat}
    (h : o.target = some (w, off)) (st : Store) :
    (o.apply d s).store st = if st = w then (s.store w).write off d else s.store st := by
  cases o <;> simp only [BusOp.target, Option.some.injEq, Prod.mk.injEq, reduceCtorEq] at h
  all_goals obtain ⟨rfl, rfl⟩ := h
  · exact store_writeWork s _ d st
  · exact store_writeTile s _ _ d st
  · exact store_writeSprite s _ d st
  · exact store_writePalette s _ d st

/-! ### Address decode -/

theorem Region.contains_iff (r : Region) (a : Nat) : r.contains a = true ↔ r.start ≤ a ∧ a < r.start + r.size := by
  simp [Region.contains]

theorem Region.offset_lt {r : Region} {a : Nat} (h : r.contains a = true) : a - r.start < r.size := by
  rw [Region.contains_iff] at h; omega

/-- The condition under which a write reaches a target. -/
def Reached (cfg : Config) (a : Nat) : WriteTarget → Prop
  | .workram => cfg.workRam.contains a = true
  | .txram => (cfg.tileRam.get .tx).contains a = true
  | .fgram => (cfg.tileRam.get .fg).contains a = true
  | .bgram => (cfg.tileRam.get .bg).contains a = true
  | .sprram => cfg.spriteRam.contains a = true
  | .palram => cfg.paletteRam.contains a = true
  | .rom => True
  | .scrollfg => (cfg.scrollRegion .fg).contains a = true
  | .scrollbg => (cfg.scrollRegion .bg).contains a = true
  | .banksel => a = cfg.bankselAddr
  | .bankwin => cfg.bankWindow.contains a = true
  | .unmapped => True

theorem writeTarget_reached (cfg : Config) (a : Nat) : Reached cfg a (cfg.writeTarget a) := by
  unfold Config.writeTarget
  repeat' split
  all_goals first | assumption | trivial

/-! ### The effect of a bus step -/

/-- `t` is what a bus step of the pins `c`, `b` leaves: the timing advanced, the operation `op` done, `d` on the data
lines. -/
structure Effect (c : Ctl) (b : BusOperands) (op : BusOp) (d : Byte) (s t : State) : Prop where
  running : s.fault = none
  result : t = (op.apply b.data (s.advance b.ticks)).busReturn c b d

theorem effect_of_busCycle {c : Ctl} {b : BusOperands} {d : State → Byte} {f : State → State} {s t : State}
    (op : BusOp) (h : busCycle c b d f s = .next t) (hop : f (s.advance b.ticks) = op.apply b.data (s.advance b.ticks)) :
    Effect c b op (d (s.advance b.ticks)) s t := by
  obtain ⟨hf, ht⟩ := busCycle_next h
  exact ⟨hf, by rw [ht, hop]⟩

/-- An illegal pin word never completes. -/
theorem illegalCycle_not_next {c : Ctl} {b : BusOperands} {s t : State} (h : illegalCycle c b s = .next t) : False :=
  nomatch (running_next h).2

/-- A memory read does nothing but put a byte on the data lines. -/
theorem memRead_effect {m1 : Bool} {b : BusOperands} {s t : State} (h : memRead m1 b s = .next t) :
    ∃ d, Effect (.memRd m1) b .nothing d s t := by
  unfold memRead at h
  split at h
  · exact ⟨_, effect_of_busCycle .nothing h rfl⟩
  · obtain ⟨-, h⟩ := running_next h
    split at h
    · exact ⟨_, effect_of_busCycle .nothing h rfl⟩
    · cases h
  · exact ⟨_, effect_of_busCycle .nothing h rfl⟩
  · exact ⟨_, effect_of_busCycle .nothing h rfl⟩

/-- A memory write does one operation that fits the configuration, and leaves the data lines. -/
theorem memWrite_effect {b : BusOperands} {s t : State} (h : memWrite b s = .next t) :
    ∃ op, op.Fits s.cfg ∧ op ≠ .ack ∧ Effect .memWr b op b.data s t := by
  have hr := writeTarget_reached s.cfg b.addr.toNat
  unfold memWrite at h
  generalize s.cfg.writeTarget b.addr.toNat = w at h hr
  cases w with
  | workram =>
    exact ⟨.work (b.addr.toNat - s.cfg.workRam.start), Region.offset_lt hr, nofun, effect_of_busCycle _ h rfl⟩
  | txram =>
    exact ⟨.tile .tx (b.addr.toNat - (s.cfg.tileRam.get .tx).start), Region.offset_lt hr, nofun,
      effect_of_busCycle _ h rfl⟩
  | fgram =>
    exact ⟨.tile .fg (b.addr.toNat - (s.cfg.tileRam.get .fg).start), Region.offset_lt hr, nofun,
      effect_of_busCycle _ h rfl⟩
  | bgram =>
    exact ⟨.tile .bg (b.addr.toNat - (s.cfg.tileRam.get .bg).start), Region.offset_lt hr, nofun,
      effect_of_busCycle _ h rfl⟩
  | sprram =>
    exact ⟨.sprite (b.addr.toNat - s.cfg.spriteRam.start), Region.offset_lt hr, nofun, effect_of_busCycle _ h rfl⟩
  | palram =>
    exact ⟨.palette (b.addr.toNat - s.cfg.paletteRam.start), Region.offset_lt hr, nofun, effect_of_busCycle _ h rfl⟩
  | scrollfg =>
    exact ⟨.scroll .fg (b.addr.toNat - s.cfg.scrollWin.fg), Region.offset_lt hr, nofun, effect_of_busCycle _ h rfl⟩
  | scrollbg =>
    exact ⟨.scroll .bg (b.addr.toNat - s.cfg.scrollWin.bg), Region.offset_lt hr, nofun, effect_of_busCycle _ h rfl⟩
  | banksel => exact ⟨.bank, trivial, nofun, effect_of_busCycle _ h rfl⟩
  | rom => exact ⟨.nothing, trivial, nofun, effect_of_busCycle _ h rfl⟩
  | bankwin => exact ⟨.nothing, trivial, nofun, effect_of_busCycle _ h rfl⟩
  | unmapped => exact ⟨.nothing, trivial, nofun, effect_of_busCycle _ h rfl⟩

/-- The control field of each kind that does not fault, back from the classification (R82). -/
theorem ctl_of_classify (c : Ctl) :
    match classify c with
    | .inta => c = .inta c.wr c.rd
    | .ioRead => c = .ioRd
    | .ioWrite => c = .ioWr
    | .ioIdle => c = .ioIdle
    | .memRead => c = .memRd c.m1
    | .memWrite => c = .memWr
    | .memIdle => c = .memIdle c.m1
    | .noRequest => c = .noRequest c.wr c.rd c.m1
    | _ => True := by
  obtain ⟨wr, rd, iorq, mreq, m1⟩ := c
  cases wr <;> cases rd <;> cases iorq <;> cases mreq <;> cases m1 <;> first | rfl | trivial

/-- Everything a bus step that completes can do. -/
theorem busStep_effect {p : PinWord} {n : Nat} {s t : State} (h : busStep p n s = .next t) :
    ∃ op d, op.Fits s.cfg ∧ (op = .ack ↔ classify (Ctl.ofPins p) = .inta) ∧
      (classify (Ctl.ofPins p) ≠ .memRead → classify (Ctl.ofPins p) ≠ .ioRead → classify (Ctl.ofPins p) ≠ .inta →
        d = PinWord.data p) ∧
      Effect (Ctl.ofPins p) (BusOperands.ofPins p n) op d s t := by
  have hc := ctl_of_classify (Ctl.ofPins p)
  unfold busStep at h
  dsimp only at h
  generalize hk : classify (Ctl.ofPins p) = k at h hc
  cases k with
  | illegalRdwr => exact (illegalCycle_not_next h).elim
  | illegalMemio => exact (illegalCycle_not_next h).elim
  | illegalM1wr => exact (illegalCycle_not_next h).elim
  | inta =>
    dsimp only at h hc
    have he := effect_of_busCycle BusOp.ack h rfl
    rw [← hc] at he
    exact ⟨.ack, _, trivial, by simp, by simp, he⟩
  | ioRead =>
    dsimp only at h hc
    have he := effect_of_busCycle BusOp.nothing h rfl
    rw [← hc] at he
    exact ⟨.nothing, _, trivial, by simp, by simp, he⟩
  | ioWrite =>
    dsimp only at h hc
    have he := effect_of_busCycle BusOp.nothing h rfl
    rw [← hc] at he
    exact ⟨.nothing, _, trivial, by simp, by simp [sameData, BusOperands.ofPins], he⟩
  | ioIdle =>
    dsimp only at h hc
    have he := effect_of_busCycle BusOp.nothing h rfl
    rw [← hc] at he
    exact ⟨.nothing, _, trivial, by simp, by simp [sameData, BusOperands.ofPins], he⟩
  | memRead =>
    dsimp only at h hc
    obtain ⟨d, he⟩ := memRead_effect h
    rw [← hc] at he
    exact ⟨.nothing, _, trivial, by simp, by simp, he⟩
  | memWrite =>
    dsimp only at h hc
    obtain ⟨op, hfit, hack, he⟩ := memWrite_effect h
    rw [← hc] at he
    exact ⟨op, _, hfit, by simp [hack], by simp [BusOperands.ofPins], he⟩
  | memIdle =>
    dsimp only at h hc
    have he := effect_of_busCycle BusOp.nothing h rfl
    rw [← hc] at he
    exact ⟨.nothing, _, trivial, by simp, by simp [sameData, BusOperands.ofPins], he⟩
  | noRequest =>
    dsimp only at h hc
    have he := effect_of_busCycle BusOp.nothing h rfl
    rw [← hc] at he
    exact ⟨.nothing, _, trivial, by simp, by simp [sameData, BusOperands.ofPins], he⟩

end Sys2Proof.Machine
end

