-- ==== Sys2Proof/Laws/Draw.lean ====
section
/-! SUPPORT. What a draw can do, said once: what composing leaves alone, the caches and flags after it, and the two
ways resolving ends. -/

namespace Sys2Proof.Machine

/-! ### What composing leaves alone -/

@[simp] theorem State.compose_cfg (s : State) : s.compose.cfg = s.cfg := by
  simp [State.compose, State.renderTileLayer]
@[simp] theorem State.compose_rom (s : State) : s.compose.rom = s.rom := by
  simp [State.compose, State.renderTileLayer]
@[simp] theorem State.compose_gfx (s : State) : s.compose.gfx = s.gfx := by
  simp [State.compose, State.renderTileLayer]
@[simp] theorem State.compose_gfxSpr (s : State) : s.compose.gfxSpr = s.gfxSpr := by
  simp [State.compose, State.renderTileLayer]
@[simp] theorem State.compose_workRam (s : State) : s.compose.workRam = s.workRam := by
  simp [State.compose, State.renderTileLayer]
@[simp] theorem State.compose_tileRam (s : State) : s.compose.tileRam = s.tileRam := by
  simp [State.compose, State.renderTileLayer]
@[simp] theorem State.compose_spriteRam (s : State) : s.compose.spriteRam = s.spriteRam := by
  simp [State.compose, State.renderTileLayer]
@[simp] theorem State.compose_paletteRam (s : State) : s.compose.paletteRam = s.paletteRam := by
  simp [State.compose, State.renderTileLayer]
@[simp] theorem State.compose_palette (s : State) : s.compose.palette = s.palette := by
  simp [State.compose, State.renderTileLayer]
@[simp] theorem State.compose_bankIndex (s : State) : s.compose.bankIndex = s.bankIndex := by
  simp [State.compose, State.renderTileLayer]
@[simp] theorem State.compose_scroll (s : State) : s.compose.scroll = s.scroll := by
  simp [State.compose, State.renderTileLayer]
@[simp] theorem State.compose_scrollX (s : State) : s.compose.scrollX = s.scrollX := by
  simp [State.compose, State.renderTileLayer]
@[simp] theorem State.compose_inputs (s : State) : s.compose.inputs = s.inputs := by
  simp [State.compose, State.renderTileLayer]
@[simp] theorem State.compose_timing (s : State) : s.compose.timing = s.timing := by
  simp [State.compose, State.renderTileLayer]
@[simp] theorem State.compose_pinsOut (s : State) : s.compose.pinsOut = s.pinsOut := by
  simp [State.compose, State.renderTileLayer]
@[simp] theorem State.compose_fault (s : State) : s.compose.fault = s.fault := by
  simp [State.compose, State.renderTileLayer]
@[simp] theorem State.compose_env (s : State) : s.compose.env = s.env := by
  simp [State.compose, State.renderTileLayer]

@[simp] theorem store_compose (s : State) (st : Store) : s.compose.store st = s.store st :=
  store_eq_of_arrays (by simp) (by simp) (by simp) (by simp) (by simp) st

theorem tileInfo_compose (s : State) (l : TileLayer) (i : Nat) : s.compose.tileInfo l i = s.tileInfo l i :=
  tileInfo_congr (by simp) l (byteAt_congr (store_compose s) _) i

/-! ### Caches, flags and calls -/

/-- What a layer's decoding leaves of another state's view of a slot. -/
theorem cacheEntry_congr {s t : State} {l : TileLayer} (hc : t.cfg = s.cfg)
    (hb : ∀ off, t.byteAt (.tile l) off = s.byteAt (.tile l) off) (hd : t.dirty.get l = s.dirty.get l)
    (ht : t.tileCache.get l = s.tileCache.get l) (i : Nat) : t.cacheEntry l i = s.cacheEntry l i := by
  simp only [State.cacheEntry, hd, ht, tileInfo_congr hc l hb]

theorem compose_tileCache (s : State) (l : TileLayer) :
    s.compose.tileCache.get l = (List.range (s.cfg.half l)).map (s.cacheEntry l) := by
  have hb : ∀ t : State, t.tileRam = s.tileRam → ∀ off, t.byteAt (.tile l) off = s.byteAt (.tile l) off :=
    fun t h off => by simp only [State.byteAt, State.store, h]
  cases l <;> simp only [State.compose, State.renderTileLayer, State.renderSprites_tileCache,
    State.paintTiles_tileCache, State.decodeDirty_tileCache, PerTile.get_set, reduceCtorEq, if_true, if_false] <;>
  refine congrArg₂ _ (funext fun i => cacheEntry_congr (by simp) (hb _ (by simp)) (by simp) (by simp) i) (by simp)

theorem compose_dirty (s : State) (l : TileLayer) : s.compose.dirty.get l = List.replicate (s.cfg.half l) false := by
  cases l <;> simp [State.compose, State.renderTileLayer]

/-- The `tile_info` calls of a layer, in rising order of slot. -/
def State.infoCalls (s : State) (l : TileLayer) : List Output :=
  (s.dirtySlots l).map fun i => .tileInfo l i (s.tileInfo l i)

theorem compose_outbox (s : State) :
    s.compose.outbox = s.outbox ++ (s.infoCalls .bg ++ (s.infoCalls .fg ++ s.infoCalls .tx)) := by
  have hb : ∀ t : State, ∀ l, t.tileRam = s.tileRam → ∀ off, t.byteAt (.tile l) off = s.byteAt (.tile l) off :=
    fun t l h off => by simp only [State.byteAt, State.store, h]
  have hcalls : ∀ t : State, ∀ l, t.cfg = s.cfg → t.tileRam = s.tileRam → t.dirty.get l = s.dirty.get l →
      (t.dirtySlots l).map (fun i => Output.tileInfo l i (t.tileInfo l i)) = s.infoCalls l := by
    intro t l hc hr hd
    simp only [State.infoCalls, State.dirtySlots, hc, hd, tileInfo_congr hc l (hb t l hr)]
  simp only [State.compose, State.renderTileLayer, State.renderSprites_outbox, State.paintTiles_outbox,
    State.decodeDirty_outbox, List.append_assoc]
  rw [hcalls _ .bg (by simp) (by simp) (by simp), hcalls _ .fg (by simp) (by simp) (by simp),
    hcalls _ .tx (by simp) (by simp) (by simp)]
  simp

theorem mem_dirtySlots (s : State) (l : TileLayer) (i : Nat) :
    i ∈ s.dirtySlots l ↔ i < s.cfg.half l ∧ (s.dirty.get l).getD i false = true := by
  simp [State.dirtySlots]

theorem mem_infoCalls (s : State) (k l : TileLayer) (i : Nat) (info : TileInfo) :
    .tileInfo l i info ∈ s.infoCalls k ↔
      l = k ∧ i < s.cfg.half l ∧ (s.dirty.get l).getD i false = true ∧ info = s.tileInfo l i := by
  simp only [State.infoCalls, List.mem_map, mem_dirtySlots, Output.tileInfo.injEq]
  constructor
  · rintro ⟨j, ⟨h1, h2⟩, rfl, rfl, rfl⟩; exact ⟨rfl, h1, h2, rfl⟩
  · rintro ⟨rfl, h1, h2, rfl⟩; exact ⟨i, ⟨h1, h2⟩, rfl, rfl, rfl⟩

/-- A cache entry that is current stays so, and a dirty one becomes current. -/
theorem cacheEntry_current {s : State} {l : TileLayer} {i : Nat}
    (h : (s.dirty.get l).getD i false = false → (s.tileCache.get l).getD i ⟨0, 0⟩ = s.tileInfo l i) :
    s.cacheEntry l i = s.tileInfo l i := by
  unfold State.cacheEntry
  split
  · rfl
  · rename_i hd
    exact h (by simpa using hd)

/-! ### The bitmap -/

theorem compose_bitmapShape (s : State) : HasShape s.cfg.bmpH s.cfg.bmpW s.compose.bitmap := by
  have h : ∀ t : State, t.cfg = s.cfg → HasShape s.cfg.bmpH s.cfg.bmpW t.renderSprites.bitmap := by
    intro t ht; rw [← ht]; exact hasShape_tabulate _ _ _
  exact h _ (by simp [State.renderTileLayer])

/-- The bitmap depends on neither the frame, the outside, the outbox nor the timing. -/
theorem visiblePixel_compose_emit (s : State) (o : Output) (y x : Nat) :
    (s.emit o).compose.visiblePixel y x = s.compose.visiblePixel y x := rfl

theorem visiblePixel_compose_afterPacing (s : State) (y x : Nat) :
    s.afterPacing.compose.visiblePixel y x = s.compose.visiblePixel y x := by
  unfold State.afterPacing
  split <;> rfl

/-! ### Resolving -/

theorem mem_visiblePixels (cfg : Config) (p : Nat × Nat) : p ∈ visiblePixels cfg ↔ p.1 < cfg.visH ∧ p.2 < cfg.visW := by
  obtain ⟨y, x⟩ := p
  simp [visiblePixels]

/-- The state a draw with a colour for every visible pixel leaves. -/
def State.resolved (s : State) : State :=
  { s with frame := tabulate s.cfg.visH s.cfg.visW fun y x => colourAt s.palette (s.visiblePixel y x) }

theorem resolve_of_colours {s : State}
    (h : ∀ y x, y < s.cfg.visH → x < s.cfg.visW → s.visiblePixel y x < paletteEntries) : resolve s = .next s.resolved := by
  have hn : (visiblePixels s.cfg).find? s.noColour = none := by
    rw [List.find?_eq_none]
    intro p hp
    rw [mem_visiblePixels] at hp
    have := h p.1 p.2 hp.1 hp.2
    simp only [State.noColour, decide_eq_true_eq]
    omega
  simp only [resolve, hn]
  rfl

theorem resolve_next {s t : State} (h : resolve s = .next t) : t = s.resolved := by
  unfold resolve at h
  split at h
  · cases h
  · exact (Host.Outcome.next.inj h).symm

theorem draw_next {s t : State} (h : draw s = .next t) : t = s.compose.resolved := resolve_next h

theorem store_resolved (s : State) (st : Store) : s.resolved.store st = s.store st :=
  store_eq_of_arrays rfl rfl rfl rfl rfl st

end Sys2Proof.Machine
end

