-- ==== Sys2Proof/Laws/Initial.lean ====
section
/-! SUPPORT. What a launch that is accepted says of its parts, and the invariant of the state it gives. -/

namespace Sys2Proof.Machine

/-- Two regions are disjoint in the sense of the check exactly when they share no address. -/
theorem regionsDisjoint_iff (r q : Region) :
    regionsDisjoint r q = true ↔ ∀ a, ¬ (r.contains a = true ∧ q.contains a = true) := by
  simp only [regionsDisjoint, Region.contains, Bool.or_eq_true, Bool.and_eq_true, decide_eq_true_eq]
  constructor
  · intro h a; omega
  · intro h
    have := h (max r.start q.start)
    omega

theorem pairwiseDisjoint_iff (rs : List Region) :
    pairwiseDisjoint rs = true ↔ rs.Pairwise fun r q => regionsDisjoint r q = true := by
  induction rs with
  | nil => simp [pairwiseDisjoint]
  | cons r rest ih => simp [pairwiseDisjoint, ih, List.pairwise_cons]

theorem imageGiven_some {size : Nat} {o : Option Image} (h : imageGiven size o = true) :
    ∃ i, o = some i ∧ i.size = size ∧ imageOk i = true := by
  cases o with
  | none => exact nomatch h
  | some i =>
    simp only [imageGiven, Bool.and_eq_true, decide_eq_true_eq] at h
    exact ⟨i, rfl, h.1, h.2⟩

theorem tileImageGiven_some {o : Option Image} (h : tileImageGiven o = true) : ∃ i, o = some i ∧ imageOk i = true := by
  cases o with
  | none => exact nomatch h
  | some i => exact ⟨i, rfl, h⟩

/-- The parts of an accepted launch. -/
structure LaunchParts (l : Launch) : Prop where
  cfgOk : configOk l.cfg = true
  fixed0 : imageGiven l.cfg.rom0.size l.images.fixed0 = true
  fixed1 : imageGiven l.cfg.rom1.size l.images.fixed1 = true
  fixed2 : imageGiven l.cfg.rom2.size l.images.fixed2 = true
  bank : imageGiven l.cfg.bankStorageSize l.images.bank = true
  tiles : ∀ k, tileImageGiven (l.images.tileRom.get k) = true
  sprites : imageOk l.images.gfxSpr = true

theorem launchOk_iff (l : Launch) : launchOk l = true ↔ LaunchParts l := by
  simp only [launchOk, Bool.and_eq_true]
  constructor
  · rintro ⟨⟨⟨⟨⟨⟨⟨⟨h1, h2⟩, h3⟩, h4⟩, h5⟩, h6⟩, h7⟩, h8⟩, h9⟩
    exact ⟨h1, h2, h3, h4, h5, fun k => by cases k <;> assumption, h9⟩
  · rintro ⟨h1, h2, h3, h4, h5, h6, h9⟩
    exact ⟨⟨⟨⟨⟨⟨⟨⟨h1, h2⟩, h3⟩, h4⟩, h5⟩, h6 .tx⟩, h6 .fg⟩, h6 .bg⟩, h9⟩

/-- An address that the map gives a source has an entry with that source. -/
theorem mem_of_findPort {ports : List (Nat × Option PortSource)} {a : Nat} {src : PortSource}
    (h : findPort ports a = some src) : (a, some src) ∈ ports := by
  induction ports with
  | nil => cases h
  | cons e rest ih =>
    obtain ⟨p, o⟩ := e
    simp only [findPort] at h
    split at h
    · next hp => subst hp; subst h; exact List.mem_cons_self
    · exact List.mem_cons_of_mem _ (ih h)

/-- The check over the list says (a) and (h) of R9 of the map: of every address it gives a source, and of no other. -/
theorem portsOk_iff (cfg : Config) : cfg.inputPorts.all (portOk cfg) = true ↔
    ∀ a src, cfg.inputPort a = some src →
      inSpace cfg ⟨a, 1⟩ = true ∧ (storeRegions cfg).all (regionsDisjoint ⟨a, 1⟩) = true := by
  rw [List.all_eq_true]
  constructor
  · intro h a src ha
    simpa [portOk, ha] using h _ (mem_of_findPort ha)
  · rintro h ⟨a, o⟩ -
    cases ha : cfg.inputPort a with
    | none => simp [portOk, ha]
    | some src => simpa [portOk, ha] using h a src ha

/-- The parts of an accepted configuration (R9). -/
structure ConfigParts (cfg : Config) : Prop where
  storesInSpace : (storeRegions cfg).all (inSpace cfg) = true
  registersInSpace : (registerRegions cfg).all (inSpace cfg) = true
  storesDisjoint : pairwiseDisjoint (storeRegions cfg) = true
  tileEven : ∀ k, (cfg.tileRam.get k).size % 2 = 0
  paletteSize : cfg.paletteRam.size = 2 * paletteEntries
  tilesSuffice : ∀ k, 2 ^ (8 + cfg.codeBits.get k) ≤ cfg.gfxTiles.get k
  ticks : 1 ≤ cfg.tpf
  shift : cfg.bankShift ≤ 8
  registersDisjoint : (registerRegions cfg).all (fun r => (storeRegions cfg).all (regionsDisjoint r)) = true
  ports : cfg.inputPorts.all (portOk cfg) = true
  bases : cfg.palBase.distinct = true
  rows : cfg.overscanRows + cfg.visH ≤ cfg.bmpH
  columns : cfg.visW ≤ cfg.bmpW
  scrollLo : cfg.scrollLoOff < 3
  scrollHi : cfg.scrollHiOff < 3

theorem configOk_iff (cfg : Config) : configOk cfg = true ↔ ConfigParts cfg := by
  simp only [configOk, storeHoldsCodes, Bool.and_eq_true, decide_eq_true_eq]
  constructor
  · rintro ⟨⟨⟨⟨⟨⟨⟨⟨⟨⟨⟨⟨⟨⟨⟨⟨⟨⟨h1, h2⟩, h3⟩, h4⟩, h5⟩, h6⟩, h7⟩, h8⟩, h9⟩, h10⟩, h11⟩, h12⟩, h13⟩, h14⟩, h15⟩, h16⟩, h17⟩,
      h18⟩, h19⟩
    exact ⟨h1, h2, h3, fun k => by cases k <;> assumption, h7, fun k => by cases k <;> assumption, h11, h12, h13, h14,
      h15, h16, h17, h18, h19⟩
  · rintro ⟨h1, h2, h3, h4, h7, h8, h11, h12, h13, h14, h15, h16, h17, h18, h19⟩
    exact ⟨⟨⟨⟨⟨⟨⟨⟨⟨⟨⟨⟨⟨⟨⟨⟨⟨⟨h1, h2⟩, h3⟩, h4 .tx⟩, h4 .fg⟩, h4 .bg⟩, h7⟩, h8 .tx⟩, h8 .fg⟩, h8 .bg⟩, h11⟩, h12⟩, h13⟩,
      h14⟩, h15⟩, h16⟩, h17⟩, h18⟩, h19⟩

/-- No byte of a state right after initialisation is anything but 0, outside the ROM arrays. -/
theorem byteAt_initial (l : Launch) (env : Collaborators) (out : List Output) {st : Store} (h : ∀ r, st ≠ .rom r)
    (off : Nat) : (State.initial l env out).byteAt st off = 0 := by
  cases st with
  | rom r => exact absurd rfl (h r)
  | tile k => cases k <;> rfl
  | _ => rfl

/-- An accepted launch gives a legal state. -/
theorem inv_initial {l : Launch} (h : launchOk l = true) (env : Collaborators) (out : List Output) :
    (State.initial l env out).Inv := by
  obtain ⟨hc, h0, h1, h2, hb, ht, hs⟩ := (launchOk_iff l).mp h
  obtain ⟨i0, e0, s0, o0⟩ := imageGiven_some h0
  obtain ⟨i1, e1, s1, o1⟩ := imageGiven_some h1
  obtain ⟨i2, e2, s2, o2⟩ := imageGiven_some h2
  obtain ⟨ib, eb, sb, ob⟩ := imageGiven_some hb
  have hp := (configOk_iff l.cfg).mp hc
  simp only [imageOk, Bool.and_eq_true] at o0 o1 o2 ob
  constructor
  · exact hc
  · intro st
    cases st with
    | rom r =>
      cases r <;> simp only [State.store, State.initial, e0, e1, e2, eb, imageCells]
      · exact o0.1
      · exact o1.1
      · exact o2.1
      · exact ob.1
    | tile k => cases k <;> rfl
    | _ => rfl
  · intro st
    cases st with
    | rom r =>
      cases r <;> simp only [State.store, State.initial, e0, e1, e2, eb, imageCells, storeSize]
      · rw [← s0]; exact o0.2
      · rw [← s1]; exact o1.2
      · rw [← s2]; exact o2.2
      · rw [← sb]; exact ob.2
    | tile k => cases k <;> rfl
    | _ => rfl
  · simp [State.initial]
  · intro k
    obtain ⟨i, ei, -⟩ := tileImageGiven_some (ht k)
    cases k <;> simp only [PerTile.get] at ei <;> simp [State.initial, PerTile.get, decodedStore, ei]
  · intro k; cases k <;> simp [State.initial, PerTile.get]
  · intro k; cases k <;> simp [State.initial, PerTile.get]
  · exact hasShape_tabulate _ _ _
  · exact hasShape_tabulate _ _ _
  · exact Int.le_refl _
  · exact Int.le_refl _
  · intro k i hi hd
    have hr : (State.initial l env out).dirty.get k = List.replicate (l.cfg.half k) true := by cases k <;> rfl
    have hi' : i < l.cfg.half k := hi
    simp [hr, hi'] at hd

end Sys2Proof.Machine
end

