-- ==== Sys2Proof/Laws/Keeps.lean ====
section
/-! SUPPORT. The invariant through each operation, and one induction for a whole frame. -/

namespace Sys2Proof.Machine

/-! ### The invariant -/

/-- The invariant depends on none of the parts left out here. -/
theorem inv_congr {s t : State} (hi : s.Inv) (hc : t.cfg = s.cfg) (hst : ∀ st, t.store st = s.store st)
    (hg : t.gfx = s.gfx) (hp : t.palette.length = s.palette.length) (hd : t.dirty = s.dirty)
    (hk : t.tileCache = s.tileCache) (hb : t.bitmap = s.bitmap) (hf : t.frame = s.frame)
    (hv : t.timing.vsyncTicks ≤ s.cfg.tpf) (hw : 0 ≤ t.timing.vblankTicks) : t.Inv := by
  constructor
  · rw [hc]; exact hi.cfgOk
  · intro st; rw [hst]; exact hi.canonical st
  · intro st; rw [hst, hc]; exact hi.within st
  · rw [hp]; exact hi.paletteLength
  · intro l; rw [hg, hc]; exact hi.gfxLength l
  · intro l; rw [hd, hc]; exact hi.dirtyLength l
  · intro l; rw [hk, hc]; exact hi.cacheLength l
  · rw [hb, hc]; exact hi.bitmapShape
  · rw [hf, hc]; exact hi.frameShape
  · rw [hc]; exact hv
  · exact hw
  · intro l i h1 h2
    rw [hc] at h1
    rw [hd] at h2
    rw [hk, tileInfo_congr hc l (byteAt_congr hst _) i]
    exact hi.cacheCurrent l i h1 h2

/-- The timing advance keeps the bounds of the counters (R31, R32). -/
theorem Timing.advance_bounds {tpf vb n : Nat} {t : Timing} (hv : t.vsyncTicks ≤ tpf) (hw : 0 ≤ t.vblankTicks) :
    (t.advance tpf vb n).vsyncTicks ≤ tpf ∧ 0 ≤ (t.advance tpf vb n).vblankTicks := by
  by_cases h : t.vsyncTicks - n ≤ 0
  · rw [Timing.advance_opens h]
    exact ⟨by simp only; omega, by simp⟩
  · rw [Timing.advance_runs (by omega)]
    refine ⟨by simp only; omega, ?_⟩
    simp only
    split <;> omega

theorem inv_advance {s : State} (hi : s.Inv) (n : Nat) : (s.advance n).Inv := by
  have hb := Timing.advance_bounds (vb := s.cfg.vblankTicks) (n := n) hi.vsyncBound hi.vblankBound
  exact inv_congr hi rfl (fun st => store_advance s n st) rfl rfl rfl rfl rfl rfl hb.1 hb.2

theorem inv_busReturn {s : State} (hi : s.Inv) (c : Ctl) (b : BusOperands) (d : Byte) : (s.busReturn c b d).Inv :=
  inv_congr hi rfl (fun st => store_busReturn s c b d st) rfl rfl rfl rfl rfl rfl hi.vsyncBound hi.vblankBound

theorem inv_emit {s : State} (hi : s.Inv) (o : Output) : (s.emit o).Inv :=
  inv_congr hi rfl (fun st => store_emit s o st) rfl rfl rfl rfl rfl rfl hi.vsyncBound hi.vblankBound

theorem inv_setInput {s : State} (hi : s.Inv) (k : Nat) (v : Byte) : (s.setInput k v).Inv :=
  inv_congr hi rfl (fun st => store_setInput s k v st) rfl rfl rfl rfl rfl rfl hi.vsyncBound hi.vblankBound

theorem inv_env {s : State} (hi : s.Inv) (e : Collaborators) (out : List Output) :
    ({ s with env := e, outbox := out } : State).Inv :=
  inv_congr hi rfl (fun st => store_eq_of_arrays rfl rfl rfl rfl rfl st) rfl rfl rfl rfl rfl rfl hi.vsyncBound
    hi.vblankBound

theorem inv_afterPacing {s : State} (hi : s.Inv) : s.afterPacing.Inv := by
  unfold State.afterPacing
  split
  · exact inv_env hi _ s.outbox
  · exact inv_env hi _ s.outbox

theorem inv_afterSlice {s : State} (hi : s.Inv) : s.afterSlice.Inv := by
  unfold State.afterSlice
  split
  · exact inv_env hi _ s.outbox
  · exact inv_env hi _ s.outbox

/-- A write of a store other than a tile array keeps the invariant. -/
theorem inv_storeWrite {s t : State} (hi : s.Inv) {w : Store} {off : Nat} {d : Byte} (hw : ∀ l, w ≠ .tile l)
    (ho : off < storeSize s.cfg w) (hst : ∀ st, t.store st = if st = w then (s.store w).write off d else s.store st)
    (hc : t.cfg = s.cfg) (hg : t.gfx = s.gfx) (hp : t.palette.length = s.palette.length) (hd : t.dirty = s.dirty)
    (hk : t.tileCache = s.tileCache) (hb : t.bitmap = s.bitmap) (hf : t.frame = s.frame)
    (ht : t.timing = s.timing) : t.Inv := by
  constructor
  · rw [hc]; exact hi.cfgOk
  · intro st; rw [hst]
    split
    · exact Memory.wf_write _ _ (hi.canonical w)
    · exact hi.canonical st
  · intro st; rw [hst, hc]
    split
    · subst_vars; exact Memory.within_write ho (hi.within _)
    · exact hi.within st
  · rw [hp]; exact hi.paletteLength
  · intro l; rw [hg, hc]; exact hi.gfxLength l
  · intro l; rw [hd, hc]; exact hi.dirtyLength l
  · intro l; rw [hk, hc]; exact hi.cacheLength l
  · rw [hb, hc]; exact hi.bitmapShape
  · rw [hf, hc]; exact hi.frameShape
  · rw [ht, hc]; exact hi.vsyncBound
  · rw [ht]; exact hi.vblankBound
  · intro l i h1 h2
    rw [hc] at h1
    rw [hd] at h2
    have htile : ∀ a, t.byteAt (.tile l) a = s.byteAt (.tile l) a := by
      intro a; simp only [State.byteAt, hst, if_neg (Ne.symm (hw l))]
    rw [hk, tileInfo_congr hc l htile i]
    exact hi.cacheCurrent l i h1 h2

/-- A tile-RAM write marks the slot of both bytes, so an unmarked slot keeps its bytes (R165). -/
theorem slot_unchanged {off h i : Nat} (ho : off < 2 * h) (hi : i < h) (hne : i ≠ off % h) : i ≠ off ∧ i + h ≠ off := by
  constructor
  · rintro rfl; exact hne (Nat.mod_eq_of_lt hi).symm
  · intro he
    apply hne
    rw [← he, Nat.add_mod_right, Nat.mod_eq_of_lt hi]

theorem inv_writeTile {s : State} (hi : s.Inv) {l : TileLayer} {off : Nat} (d : Byte)
    (ho : off < (s.cfg.tileRam.get l).size) : (s.writeTile l off d).Inv := by
  have hst := store_writeTile s l off d
  have heven := ((configOk_iff _).mp hi.cfgOk).tileEven l
  constructor
  · exact hi.cfgOk
  · intro st; rw [hst]
    split
    · exact Memory.wf_write _ _ (hi.canonical _)
    · exact hi.canonical st
  · intro st; rw [hst]
    split
    · subst_vars; exact Memory.within_write ho (hi.within _)
    · exact hi.within st
  · exact hi.paletteLength
  · exact hi.gfxLength
  · intro k
    have := hi.dirtyLength k
    simp only [State.writeTile_dirty, PerTile.get_set, State.writeTile_cfg]
    split
    · subst_vars; simpa using this
    · exact this
  · exact hi.cacheLength
  · exact hi.bitmapShape
  · exact hi.frameShape
  · exact hi.vsyncBound
  · exact hi.vblankBound
  · intro k i h1 h2
    simp only [State.writeTile_dirty, PerTile.get_set, State.writeTile_cfg] at h1 h2
    by_cases hk : k = l
    · subst hk
      have hne : i ≠ off % s.cfg.half k := by
        rintro rfl
        have hlen := hi.dirtyLength k
        simp [State.slotOf, hlen, h1] at h2
      have hd : (s.dirty.get k).getD i false = false := by
        simpa [State.slotOf, List.getElem?_set_ne (Ne.symm hne)] using h2
      have hb := slot_unchanged (by unfold Config.half; omega) h1 hne
      have hbyte := byteAt_of_write (hi.canonical (.tile k)) hst (.tile k)
      have hinfo : (s.writeTile k off d).tileInfo k i = s.tileInfo k i := by
        simp only [State.tileInfo, State.writeTile_cfg, hbyte, hb.1, hb.2, and_false, if_false]
      rw [hinfo]
      exact hi.cacheCurrent k i h1 hd
    · have hbyte := byteAt_of_write (hi.canonical (.tile l)) hst (.tile k)
      have hinfo : (s.writeTile l off d).tileInfo k i = s.tileInfo k i :=
        tileInfo_congr (s := s) (t := s.writeTile l off d) rfl k (fun a => by rw [hbyte]; simp [hk]) i
      rw [hinfo]
      exact hi.cacheCurrent k i h1 (by simpa [hk] using h2)

/-- Every operation of a bus step keeps the invariant. -/
theorem inv_apply {s : State} (hi : s.Inv) {op : BusOp} (hf : op.Fits s.cfg) (d : Byte) : (op.apply d s).Inv := by
  cases op with
  | nothing => exact hi
  | work off => exact inv_storeWrite (w := .work) hi nofun hf (store_writeWork s off d) rfl rfl rfl rfl rfl rfl rfl rfl
  | sprite off => exact inv_storeWrite (w := .sprite) hi nofun hf (store_writeSprite s off d) rfl rfl rfl rfl rfl rfl rfl rfl
  | palette off =>
    exact inv_storeWrite (w := .palette) hi nofun hf (store_writePalette s off d) rfl rfl (by simp [BusOp.apply]) rfl rfl rfl rfl rfl
  | tile l off => exact inv_writeTile hi d hf
  | scroll l k =>
    exact inv_congr hi rfl (fun st => store_writeScroll s l k d st) rfl rfl rfl rfl rfl rfl hi.vsyncBound hi.vblankBound
  | bank =>
    exact inv_congr hi rfl (fun st => store_writeBank s d st) rfl rfl rfl rfl rfl rfl hi.vsyncBound hi.vblankBound
  | ack =>
    exact inv_congr hi rfl (fun st => by simp [BusOp.apply]) rfl rfl rfl rfl rfl rfl hi.vsyncBound hi.vblankBound

/-- A bus step keeps the invariant. -/
theorem inv_busStep {p : PinWord} {n : Nat} {s t : State} (hi : s.Inv) (h : busStep p n s = .next t) : t.Inv := by
  obtain ⟨op, d, hf, -, -, -, rfl⟩ := busStep_effect h
  exact inv_busReturn (inv_apply (inv_advance hi _) hf _) _ _ _

/-- A draw keeps the invariant. -/
theorem inv_draw {s t : State} (hi : s.Inv) (h : draw s = .next t) : t.Inv := by
  rw [draw_next h]
  have hst : ∀ st, s.compose.resolved.store st = s.store st := fun st => by rw [store_resolved, store_compose]
  have hc : s.compose.resolved.cfg = s.cfg := State.compose_cfg s
  constructor
  · rw [hc]; exact hi.cfgOk
  · intro st; rw [hst]; exact hi.canonical st
  · intro st; rw [hst, hc]; exact hi.within st
  · show s.compose.palette.length = _
    rw [State.compose_palette]; exact hi.paletteLength
  · intro l
    show (s.compose.gfx.get l).length = s.compose.cfg.gfxTiles.get l
    rw [State.compose_gfx, State.compose_cfg]; exact hi.gfxLength l
  · intro l
    show (s.compose.dirty.get l).length = s.compose.cfg.half l
    rw [compose_dirty, State.compose_cfg, List.length_replicate]
  · intro l
    show (s.compose.tileCache.get l).length = s.compose.cfg.half l
    rw [compose_tileCache, State.compose_cfg, List.length_map, List.length_range]
  · show HasShape s.compose.cfg.bmpH s.compose.cfg.bmpW s.compose.bitmap
    rw [State.compose_cfg]; exact compose_bitmapShape s
  · exact hasShape_tabulate _ _ _
  · show s.compose.timing.vsyncTicks ≤ s.compose.cfg.tpf
    rw [State.compose_timing, State.compose_cfg]; exact hi.vsyncBound
  · show 0 ≤ s.compose.timing.vblankTicks
    rw [State.compose_timing]; exact hi.vblankBound
  · intro l i h1 h2
    have h1' : i < s.cfg.half l := by rw [hc] at h1; exact h1
    rw [tileInfo_congr hc l (byteAt_congr hst _) i]
    show (s.compose.tileCache.get l).getD i ⟨0, 0⟩ = _
    rw [compose_tileCache]
    simp only [List.getD_eq_getElem?_getD, List.getElem?_map, List.getElem?_range h1', Option.map_some,
      Option.getD_some]
    exact cacheEntry_current (hi.cacheCurrent l i h1')

/-! ### A whole frame -/

/-- What every bus step, answer of a collaborator, report and draw keeps, a whole frame keeps. -/
theorem runFrame_keeps {P : State → Prop} (hpace : ∀ s, P s → P s.afterPacing) (hslice : ∀ s, P s → P s.afterSlice)
    (hbus : ∀ p n s t, P s → busStep p n s = .next t → P t) (hemit : ∀ s k, P s → P (s.emit (.ticksExecuted k)))
    (hdraw : ∀ s t, P s → draw s = .next t → P t) {x : Nat} {s t : State} (hs : P s) (h : runFrame x s = .next t) :
    P t := by
  have hrun : ∀ (c : Slice) (s t : State), P s → runSlice c s = .next t → P t := by
    intro c
    induction c with
    | nil => intro s t hs h; cases h; exact hs
    | cons e rest ih =>
      obtain ⟨p, n⟩ := e
      intro s t hs h
      obtain ⟨u, h1, h2⟩ := thenDo_next h
      exact ih u t (hbus p n s u hs h1) h2
  have hloop : ∀ (fuel left done : Nat) (s t : State), P s → runSlices fuel left done s = .next t → P t := by
    intro fuel
    induction fuel with
    | zero =>
      intro left done s t hs h
      cases left with
      | zero => exact hdraw _ t (hemit s done hs) h
      | succ left => cases h
    | succ fuel ih =>
      intro left done s t hs h
      cases left with
      | zero => exact hdraw _ t (hemit s done hs) h
      | succ left =>
        obtain ⟨u, h1, h2⟩ := thenDo_next h
        have hu := hrun _ _ u (hslice s hs) h1
        split at h2
        · cases h2
        · exact ih _ _ u t hu h2
  exact hloop _ _ _ _ t (hpace s hs) h

end Sys2Proof.Machine
end

