-- ==== Sys2Proof/Laws/PerInstr.lean ====
section
/-! SUPPORT. A law stated per instruction: the encoder's word matches the instruction's row of
spec/opcode_table.json. A BUS row tests `CTL = P[28:24]` (R83), a HOST row the selector. -/

set_option Elab.async false

namespace Sys2Proof.Laws.TableRow

/-- The control field of a pin word. -/
def ctlField (p : PinWord) : BitVec 5 := p.extractLsb' 24 5

/-- The control field put together from its pins. -/
def ctlWord (c : Ctl) : BitVec 5 :=
  BitVec.ofBool c.wr ++ (BitVec.ofBool c.rd ++ (BitVec.ofBool c.iorq ++ (BitVec.ofBool c.mreq ++ BitVec.ofBool c.m1)))

theorem ctlField_pack (c : Ctl) (b : BusOperands) : ctlField (pack c b) = ctlWord c := by
  refine BitVec.eq_of_getLsbD_eq fun i hi => ?_
  have : i = 0 ∨ i = 1 ∨ i = 2 ∨ i = 3 ∨ i = 4 := by omega
  simp only [ctlField, ctlWord, BitVec.getLsbD_extractLsb', getLsbD_pack, BitVec.getLsbD_append,
    BitVec.getLsbD_ofBool]
  rcases this with rfl | rfl | rfl | rfl | rfl <;> simp

/-- A call matches a row's mask and value, the mask and value of a BUS row taken at the control field. -/
def Matches (mask value : Nat) : Call → Prop
  | .bus p _ => ctlField p &&& BitVec.ofNat 5 (mask >>> 24) = BitVec.ofNat 5 (value >>> 24)
  | .host h _ => h &&& BitVec.ofNat 8 mask = BitVec.ofNat 8 value

/-- The mask and match columns of spec/opcode_table.json; a HOST row's pattern read as mask and match. -/
def row : Instr → Nat × Nat
  | .illegalRdwr _ _ _ _ => (0x18000000, 0x18000000)
  | .illegalMemio _ _ _ _ => (0x06000000, 0x06000000)
  | .inta _ _ _ => (0x07000000, 0x05000000)
  | .ioRd _ => (0x1F000000, 0x0C000000)
  | .ioWr _ => (0x1F000000, 0x14000000)
  | .ioIdle _ => (0x1F000000, 0x04000000)
  | .illegalM1wr _ => (0x1F000000, 0x13000000)
  | .memRdGeneric _ _ => (0x1E000000, 0x0A000000)
  | .memRdBankwin _ _ => (0x1E000000, 0x0A000000)
  | .memRdInput _ _ => (0x1E000000, 0x0A000000)
  | .memRdUnmapped _ _ => (0x1E000000, 0x0A000000)
  | .memWrWorkram _ => (0x1F000000, 0x12000000)
  | .memWrTxram _ => (0x1F000000, 0x12000000)
  | .memWrFgram _ => (0x1F000000, 0x12000000)
  | .memWrBgram _ => (0x1F000000, 0x12000000)
  | .memWrSprram _ => (0x1F000000, 0x12000000)
  | .memWrPalram _ => (0x1F000000, 0x12000000)
  | .memWrRom _ => (0x1F000000, 0x12000000)
  | .memWrScrollfg _ => (0x1F000000, 0x12000000)
  | .memWrScrollbg _ => (0x1F000000, 0x12000000)
  | .memWrBanksel _ => (0x1F000000, 0x12000000)
  | .memWrBankwin _ => (0x1F000000, 0x12000000)
  | .memWrUnmapped _ => (0x1F000000, 0x12000000)
  | .memIdle _ _ => (0x1E000000, 0x02000000)
  | .noRequest _ _ _ _ => (0x06000000, 0x00000000)
  | .hostReset _ => (0b11111111, 0b00000000)
  | .hostBusStep _ _ => (0b11111111, 0b00000001)
  | .hostTileInfoTx _ => (0b11111111, 0b00010000)
  | .hostTileInfoFg _ => (0b11111111, 0b00010001)
  | .hostTileInfoBg _ => (0b11111111, 0b00010010)
  | .hostPalLookup _ => (0b11111111, 0b00100000)
  | .hostDraw => (0b11111111, 0b00110000)
  | .hostRunFrame _ => (0b11111111, 0b01000000)
  | .hostInputSet _ _ => (0b11111100, 0b01010000)

/-- The instruction's word matches its row. -/
def Statement (i : Instr) : Prop := Matches (row i).1 (row i).2 (encode i)

theorem illegalRdwr (iorq mreq m1 : Bool) (b : BusOperands) :
    Statement (.illegalRdwr iorq mreq m1 b) := by
  simp only [Statement, Matches, encode, encodeBus, ctlField_pack, row]
  cases iorq <;> cases mreq <;> cases m1 <;> decide

theorem illegalMemio (wr rd m1 : Bool) (b : BusOperands) :
    Statement (.illegalMemio wr rd m1 b) := by
  simp only [Statement, Matches, encode, encodeBus, ctlField_pack, row]
  cases wr <;> cases rd <;> cases m1 <;> decide

theorem inta (wr rd : Bool) (b : BusOperands) :
    Statement (.inta wr rd b) := by
  simp only [Statement, Matches, encode, encodeBus, ctlField_pack, row]
  cases wr <;> cases rd <;> decide

theorem ioRd (b : BusOperands) :
    Statement (.ioRd b) := by
  simp only [Statement, Matches, encode, encodeBus, ctlField_pack, row]
  decide

theorem ioWr (b : BusOperands) :
    Statement (.ioWr b) := by
  simp only [Statement, Matches, encode, encodeBus, ctlField_pack, row]
  decide

theorem ioIdle (b : BusOperands) :
    Statement (.ioIdle b) := by
  simp only [Statement, Matches, encode, encodeBus, ctlField_pack, row]
  decide

theorem illegalM1wr (b : BusOperands) :
    Statement (.illegalM1wr b) := by
  simp only [Statement, Matches, encode, encodeBus, ctlField_pack, row]
  decide

theorem memRdGeneric (m1 : Bool) (b : BusOperands) :
    Statement (.memRdGeneric m1 b) := by
  simp only [Statement, Matches, encode, encodeBus, ctlField_pack, row]
  cases m1 <;> decide

theorem memRdBankwin (m1 : Bool) (b : BusOperands) :
    Statement (.memRdBankwin m1 b) := by
  simp only [Statement, Matches, encode, encodeBus, ctlField_pack, row]
  cases m1 <;> decide

theorem memRdInput (m1 : Bool) (b : BusOperands) :
    Statement (.memRdInput m1 b) := by
  simp only [Statement, Matches, encode, encodeBus, ctlField_pack, row]
  cases m1 <;> decide

theorem memRdUnmapped (m1 : Bool) (b : BusOperands) :
    Statement (.memRdUnmapped m1 b) := by
  simp only [Statement, Matches, encode, encodeBus, ctlField_pack, row]
  cases m1 <;> decide

theorem memWrWorkram (b : BusOperands) :
    Statement (.memWrWorkram b) := by
  simp only [Statement, Matches, encode, encodeBus, ctlField_pack, row]
  decide

theorem memWrTxram (b : BusOperands) :
    Statement (.memWrTxram b) := by
  simp only [Statement, Matches, encode, encodeBus, ctlField_pack, row]
  decide

theorem memWrFgram (b : BusOperands) :
    Statement (.memWrFgram b) := by
  simp only [Statement, Matches, encode, encodeBus, ctlField_pack, row]
  decide

theorem memWrBgram (b : BusOperands) :
    Statement (.memWrBgram b) := by
  simp only [Statement, Matches, encode, encodeBus, ctlField_pack, row]
  decide

theorem memWrSprram (b : BusOperands) :
    Statement (.memWrSprram b) := by
  simp only [Statement, Matches, encode, encodeBus, ctlField_pack, row]
  decide

theorem memWrPalram (b : BusOperands) :
    Statement (.memWrPalram b) := by
  simp only [Statement, Matches, encode, encodeBus, ctlField_pack, row]
  decide

theorem memWrRom (b : BusOperands) :
    Statement (.memWrRom b) := by
  simp only [Statement, Matches, encode, encodeBus, ctlField_pack, row]
  decide

theorem memWrScrollfg (b : BusOperands) :
    Statement (.memWrScrollfg b) := by
  simp only [Statement, Matches, encode, encodeBus, ctlField_pack, row]
  decide

theorem memWrScrollbg (b : BusOperands) :
    Statement (.memWrScrollbg b) := by
  simp only [Statement, Matches, encode, encodeBus, ctlField_pack, row]
  decide

theorem memWrBanksel (b : BusOperands) :
    Statement (.memWrBanksel b) := by
  simp only [Statement, Matches, encode, encodeBus, ctlField_pack, row]
  decide

theorem memWrBankwin (b : BusOperands) :
    Statement (.memWrBankwin b) := by
  simp only [Statement, Matches, encode, encodeBus, ctlField_pack, row]
  decide

theorem memWrUnmapped (b : BusOperands) :
    Statement (.memWrUnmapped b) := by
  simp only [Statement, Matches, encode, encodeBus, ctlField_pack, row]
  decide

theorem memIdle (m1 : Bool) (b : BusOperands) :
    Statement (.memIdle m1 b) := by
  simp only [Statement, Matches, encode, encodeBus, ctlField_pack, row]
  cases m1 <;> decide

theorem noRequest (wr rd m1 : Bool) (b : BusOperands) :
    Statement (.noRequest wr rd m1 b) := by
  simp only [Statement, Matches, encode, encodeBus, ctlField_pack, row]
  cases wr <;> cases rd <;> cases m1 <;> decide

theorem hostReset (l : Launch) : Statement (.hostReset l) := by
  simp only [Statement, Matches, encode, row]; decide

theorem hostBusStep (p : PinWord) (n : Nat) : Statement (.hostBusStep p n) := by
  simp only [Statement, Matches, encode, row]; decide

theorem hostTileInfoTx (i : Nat) : Statement (.hostTileInfoTx i) := by
  simp only [Statement, Matches, encode, row]; decide

theorem hostTileInfoFg (i : Nat) : Statement (.hostTileInfoFg i) := by
  simp only [Statement, Matches, encode, row]; decide

theorem hostTileInfoBg (i : Nat) : Statement (.hostTileInfoBg i) := by
  simp only [Statement, Matches, encode, row]; decide

theorem hostPalLookup (i : Nat) : Statement (.hostPalLookup i) := by
  simp only [Statement, Matches, encode, row]; decide

theorem hostDraw : Statement (.hostDraw) := by
  simp only [Statement, Matches, encode, row]; decide

theorem hostRunFrame (t : Nat) : Statement (.hostRunFrame t) := by
  simp only [Statement, Matches, encode, row]; decide

theorem hostInputSet (k : Fin 3) (v : Byte) : Statement (.hostInputSet k v) := by
  obtain ⟨k, hk⟩ := k
  interval_cases k <;> (simp only [Statement, Matches, encode, row]; decide)

end Sys2Proof.Laws.TableRow
end

