-- ==== Sys2Proof/Tests/Slice0.lean ====
section
/-! SUPPORT. The model's own tests: words written out from the spec's encoding, ill-formed instructions, single steps
with the results of spec/95_test_vectors.md, and a witness for the hypotheses of every statement that has any. -/

set_option Elab.async false

namespace Sys2Proof.Tests

open Sys2Proof.Machine Sys2Proof.Spec

/-! ### Helpers -/

/-- A pin word from its fields in the order of R80: bits 31 to 29, `CTL`, D, A. -/
def word (ctl : BitVec 5) (d : Byte) (a : BitVec 16) : PinWord := (0b000#3 ++ ctl ++ d ++ a : BitVec (3 + 5 + 8 + 16))

/-- The operands of a bus step of 4 ticks with bits 29 to 31 zero. -/
def ops (a : BitVec 16) (d : Byte) : BusOperands := ⟨a, d, false, false, false, 4⟩

/-- A small state under TEST, with short tables; its images hold the bytes the tests read. -/
def small : State where
  cfg := Config.test
  rom := ⟨[(0, 0x3E), (0x7FFF, 0xC9)], [(0x3FFF, 0x21)], [], [(0x1810, 0x18), (0x7FFF, 0x7F)]⟩
  gfx := ⟨[], [], []⟩
  gfxSpr := .zeros 0
  workRam := [(0x123, 0x7E)]
  tileRam := ⟨[(5, 0xF0), (0x405, 0x23)], [(0, 0x34), (0x200, 0x5E)], [(0x1FF, 0xFF), (0x3FF, 0x07)]⟩
  spriteRam := []
  paletteRam := []
  palette := [⟨0x11, 0x22, 0x33, 0x00⟩, ⟨1, 2, 3, 4⟩]
  bankIndex := 3
  scroll := ⟨⟨0x20, 1, 0⟩, ⟨0, 0, 0⟩⟩
  scrollX := ⟨7, 9⟩
  inputs := ⟨0x05, 0x06, 0x07⟩
  timing := ⟨80, 12, false⟩
  pinsOut := 0
  dirty := ⟨List.replicate 6 false, List.replicate 6 false, List.replicate 6 false⟩
  tileCache := ⟨[], [], []⟩
  bitmap := []
  frame := []
  fault := none
  env := Collaborators.quiet
  outbox := []

/-- The next state of an answer satisfies a check. -/
def after (a : Answer) (p : State → Bool) : Bool :=
  match a with
  | .next t => p t
  | .fault _ => false
  | .refused _ => false

/-- The answer is the fault `f`. -/
def faults (a : Answer) (f : Fault) : Bool :=
  match a with
  | .next _ => false
  | .fault g => decide (g = f)
  | .refused _ => false

theorem exists_of_after {a : Answer} {p : State → Bool} (h : after a p = true) : ∃ t, a = .next t ∧ p t = true := by
  cases a with
  | next t => exact ⟨t, rfl, h⟩
  | fault _ => exact nomatch h
  | refused _ => exact nomatch h

theorem eq_of_faults {a : Answer} {f : Fault} (h : faults a f = true) : a = .fault f := by
  cases a with
  | next _ => exact nomatch h
  | fault g => exact congrArg _ (of_decide_eq_true h)
  | refused _ => exact nomatch h

theorem exists_next {a : Answer} (h : after a (fun _ => true) = true) : ∃ t, a = .next t :=
  (exists_of_after h).imp fun _ h => h.1

/-- One step with a pin word as the waiting call. -/
def busStepOf (s : State) (p : PinWord) (n : Nat) : Answer := step (s.withCall (.bus p n))

/-- One step with a HOST selector as the waiting call. -/
def hostStepOf (s : State) (h : BitVec 8) (o : HostOperands) : Answer := step (s.withCall (.host h o))

/-! ### Words written out from R80, R82, R85 and R89 -/

theorem test_decode_illegal :
    decodeBus Config.test (word 0b11010#5 0x00#8 0xC000#16) 4 = .illegalRdwr false true false (ops 0xC000#16 0) ∧
    decodeBus Config.test (word 0b11111#5 0x00#8 0xC000#16) 4 = .illegalRdwr true true true (ops 0xC000#16 0) ∧
    decodeBus Config.test (word 0b00110#5 0x00#8 0xC000#16) 4 = .illegalMemio false false false (ops 0xC000#16 0) ∧
    decodeBus Config.test (word 0b10111#5 0x00#8 0xC000#16) 4 = .illegalMemio true false true (ops 0xC000#16 0) ∧
    decodeBus Config.test (word 0b10011#5 0x00#8 0xC000#16) 4 = .illegalM1wr (ops 0xC000#16 0) := by
  decide

theorem test_decode_io :
    decodeBus Config.test (word 0b00101#5 0x00#8 0x0000#16) 4 = .inta false false (ops 0 0) ∧
    decodeBus Config.test (word 0b01101#5 0x00#8 0x0000#16) 4 = .inta false true (ops 0 0) ∧
    decodeBus Config.test (word 0b10101#5 0x00#8 0x0000#16) 4 = .inta true false (ops 0 0) ∧
    decodeBus Config.test (word 0b01100#5 0x00#8 0xF800#16) 4 = .ioRd (ops 0xF800#16 0) ∧
    decodeBus Config.test (word 0b10100#5 0x12#8 0x0000#16) 4 = .ioWr (ops 0 0x12#8) ∧
    decodeBus Config.test (word 0b00100#5 0x00#8 0x0000#16) 4 = .ioIdle (ops 0 0) := by
  decide

theorem test_decode_reads :
    decodeBus Config.test (word 0b01010#5 0x00#8 0x0000#16) 4 = .memRdGeneric false (ops 0 0) ∧
    decodeBus Config.test (word 0b01011#5 0x00#8 0xEFFF#16) 4 = .memRdGeneric true (ops 0xEFFF#16 0) ∧
    decodeBus Config.test (word 0b01010#5 0x00#8 0xF000#16) 4 = .memRdBankwin false (ops 0xF000#16 0) ∧
    decodeBus Config.test (word 0b01011#5 0x00#8 0xF7FF#16) 4 = .memRdBankwin true (ops 0xF7FF#16 0) ∧
    decodeBus Config.test (word 0b01010#5 0x00#8 0xF808#16) 4 = .memRdInput false (ops 0xF808#16 0) ∧
    decodeBus Config.test (word 0b01010#5 0x00#8 0xF810#16) 4 = .memRdUnmapped false (ops 0xF810#16 0) := by
  decide

theorem test_decode_ram_writes :
    decodeBus Config.test (word 0b10010#5 0x7E#8 0xCFFF#16) 4 = .memWrWorkram (ops 0xCFFF#16 0x7E#8) ∧
    decodeBus Config.test (word 0b10010#5 0x01#8 0xD7FF#16) 4 = .memWrTxram (ops 0xD7FF#16 0x01#8) ∧
    decodeBus Config.test (word 0b10010#5 0x01#8 0xD800#16) 4 = .memWrFgram (ops 0xD800#16 0x01#8) ∧
    decodeBus Config.test (word 0b10010#5 0x01#8 0xDFFF#16) 4 = .memWrBgram (ops 0xDFFF#16 0x01#8) ∧
    decodeBus Config.test (word 0b10010#5 0x01#8 0xE7FF#16) 4 = .memWrSprram (ops 0xE7FF#16 0x01#8) ∧
    decodeBus Config.test (word 0b10010#5 0x01#8 0xE800#16) 4 = .memWrPalram (ops 0xE800#16 0x01#8) := by
  decide

theorem test_decode_register_writes :
    decodeBus Config.test (word 0b10010#5 0xFF#8 0xBFFF#16) 4 = .memWrRom (ops 0xBFFF#16 0xFF#8) ∧
    decodeBus Config.test (word 0b10010#5 0x99#8 0xF802#16) 4 = .memWrScrollfg (ops 0xF802#16 0x99#8) ∧
    decodeBus Config.test (word 0b10010#5 0x99#8 0xF803#16) 4 = .memWrScrollbg (ops 0xF803#16 0x99#8) ∧
    decodeBus Config.test (word 0b10010#5 0x18#8 0xF808#16) 4 = .memWrBanksel (ops 0xF808#16 0x18#8) ∧
    decodeBus Config.test (word 0b10010#5 0x55#8 0xF7FF#16) 4 = .memWrBankwin (ops 0xF7FF#16 0x55#8) ∧
    decodeBus Config.test (word 0b10010#5 0x01#8 0xF806#16) 4 = .memWrUnmapped (ops 0xF806#16 0x01#8) := by
  decide

theorem test_decode_idle :
    decodeBus Config.test (word 0b00011#5 0x00#8 0xD000#16) 4 = .memIdle true (ops 0xD000#16 0) ∧
    decodeBus Config.test (word 0b00000#5 0x00#8 0x0000#16) 4 = .noRequest false false false (ops 0 0) ∧
    decodeBus Config.test (word 0b10001#5 0x00#8 0x0000#16) 4 = .noRequest true false true (ops 0 0) := by
  decide

/-- Bits 29 to 31 and the tick count reach the operands as they are. -/
theorem test_decode_passes_other_pins :
    decodeBus Config.test 0xE2000000#32 7 = .memIdle false ⟨0, 0, true, true, true, 7⟩ := by decide

/-- The selectors of R85, each with its operand. -/
theorem test_decode_host :
    decodeHost 0b00000000#8 HostOperands.zero = .ok (.hostReset Launch.bare) ∧
    decodeHost 0b00000001#8 { HostOperands.zero with pins := 0x05000000#32, ticks := 3 } =
      .ok (.hostBusStep 0x05000000#32 3) ∧
    decodeHost 0b00010000#8 { HostOperands.zero with index := 5 } = .ok (.hostTileInfoTx 5) ∧
    decodeHost 0b00010001#8 { HostOperands.zero with index := 5 } = .ok (.hostTileInfoFg 5) ∧
    decodeHost 0b00010010#8 { HostOperands.zero with index := 5 } = .ok (.hostTileInfoBg 5) ∧
    decodeHost 0b00100000#8 { HostOperands.zero with index := 1023 } = .ok (.hostPalLookup 1023) ∧
    decodeHost 0b00110000#8 HostOperands.zero = .ok .hostDraw ∧
    decodeHost 0b01000000#8 { HostOperands.zero with time := 16667 } = .ok (.hostRunFrame 16667) ∧
    decodeHost 0b01010000#8 { HostOperands.zero with value := 1 } = .ok (.hostInputSet 0 1) ∧
    decodeHost 0b01010001#8 { HostOperands.zero with value := 1 } = .ok (.hostInputSet 1 1) ∧
    decodeHost 0b01010010#8 { HostOperands.zero with value := 1 } = .ok (.hostInputSet 2 1) :=
  ⟨rfl, rfl, rfl, rfl, rfl, rfl, rfl, rfl, rfl, rfl, rfl⟩

/-- V123: 0x13, 0x53 and 0xFF are reserved. -/
theorem test_decode_reserved :
    decodeHost 0x13#8 HostOperands.zero = .error (.reservedHostOp 0x13#8) ∧
    decodeHost 0x53#8 HostOperands.zero = .error (.reservedHostOp 0x53#8) ∧
    decodeHost 0xFF#8 HostOperands.zero = .error (.reservedHostOp 0xFF#8) :=
  ⟨rfl, rfl, rfl⟩

/-! ### Ill-formed instructions the check refuses -/

theorem test_wf_refuses_read_with_write :
    (Instr.illegalMemio true true false (ops 0 0)).wf Config.test = false ∧
    (Instr.inta true true (ops 0 0)).wf Config.test = false ∧
    (Instr.noRequest true true false (ops 0 0)).wf Config.test = false := by
  decide

theorem test_wf_refuses_reads_out_of_place :
    (Instr.memRdGeneric false (ops 0xF000#16 0)).wf Config.test = false ∧
    (Instr.memRdBankwin false (ops 0xE000#16 0)).wf Config.test = false ∧
    (Instr.memRdBankwin false (ops 0xF800#16 0)).wf Config.test = false ∧
    (Instr.memRdInput false (ops 0xC000#16 0)).wf Config.test = false ∧
    (Instr.memRdInput false (ops 0xF000#16 0)).wf Config.test = false ∧
    (Instr.memRdInput false (ops 0xF810#16 0)).wf Config.test = false ∧
    (Instr.memRdUnmapped false (ops 0xC000#16 0)).wf Config.test = false ∧
    (Instr.memRdUnmapped false (ops 0xF7FF#16 0)).wf Config.test = false ∧
    (Instr.memRdUnmapped false (ops 0xF80F#16 0)).wf Config.test = false := by
  decide

theorem test_wf_refuses_ram_writes_out_of_place :
    (Instr.memWrWorkram (ops 0xD000#16 0)).wf Config.test = false ∧
    (Instr.memWrTxram (ops 0xD800#16 0)).wf Config.test = false ∧
    (Instr.memWrFgram (ops 0xDC00#16 0)).wf Config.test = false ∧
    (Instr.memWrBgram (ops 0xE000#16 0)).wf Config.test = false ∧
    (Instr.memWrSprram (ops 0xE800#16 0)).wf Config.test = false ∧
    (Instr.memWrPalram (ops 0xF000#16 0)).wf Config.test = false ∧
    (Instr.memWrRom (ops 0xC000#16 0)).wf Config.test = false ∧
    (Instr.memWrRom (ops 0xF000#16 0)).wf Config.test = false := by
  decide

theorem test_wf_refuses_register_writes_out_of_place :
    (Instr.memWrScrollfg (ops 0xF803#16 0)).wf Config.test = false ∧
    (Instr.memWrScrollbg (ops 0xF806#16 0)).wf Config.test = false ∧
    (Instr.memWrBanksel (ops 0xF807#16 0)).wf Config.test = false ∧
    (Instr.memWrBankwin (ops 0xF808#16 0)).wf Config.test = false ∧
    (Instr.memWrUnmapped (ops 0xF808#16 0)).wf Config.test = false ∧
    (Instr.memWrUnmapped (ops 0xF805#16 0)).wf Config.test = false ∧
    (Instr.memWrUnmapped (ops 0xF000#16 0)).wf Config.test = false ∧
    (Instr.memWrUnmapped (ops 0x0000#16 0)).wf Config.test = false := by
  decide

/-- TEST with every region stacked at 0, so that an earlier entry of R102 hides each later one. -/
def stacked : Config :=
  { Config.test with
    tileRam := ⟨⟨0xC000, 8⟩, ⟨0xC000, 16⟩, ⟨0xC000, 24⟩⟩
    spriteRam := ⟨0xC000, 32⟩
    paletteRam := ⟨0xC000, 40⟩
    workRam := ⟨0xC000, 4⟩
    bankWindow := ⟨0xC000, 64⟩
    bankselAddr := 0xC028
    scrollWin := ⟨0xC027, 0xC027⟩ }

theorem test_wf_refuses_hidden_entries :
    (Instr.memWrTxram (ops 0xC003#16 0)).wf stacked = false ∧
    (Instr.memWrFgram (ops 0xC007#16 0)).wf stacked = false ∧
    (Instr.memWrBgram (ops 0xC00F#16 0)).wf stacked = false ∧
    (Instr.memWrSprram (ops 0xC017#16 0)).wf stacked = false ∧
    (Instr.memWrPalram (ops 0xC01F#16 0)).wf stacked = false ∧
    (Instr.memWrScrollfg (ops 0xC027#16 0)).wf stacked = false ∧
    (Instr.memWrScrollbg (ops 0xC028#16 0)).wf stacked = false ∧
    (Instr.memWrBanksel (ops 0xC028#16 0)).wf stacked = false ∧
    (Instr.memWrBankwin (ops 0xC029#16 0)).wf stacked = false := by
  decide

/-! ### One step each: bus rows -/

/-- V1, V4: a fixed ROM byte on the data lines. -/
theorem test_memRdGeneric_rom :
    after (busStepOf small (word 0b01010#5 0x00#8 0xBFFF#16) 4) (fun t => decide (t.pinsOut = 0x4A21BFFF#32)) = true := by
  decide

/-- A fetch returns the stored byte alike, over whatever the data lines held. -/
theorem test_memRdGeneric_fetch :
    after (busStepOf small (word 0b01011#5 0xFF#8 0xC123#16) 4) (fun t => decide (t.pinsOut = 0x4B7EC123#32)) = true := by
  decide

/-- W3: bank 3 at window offset 0x10. -/
theorem test_memRdBankwin_bank_3 :
    after (busStepOf small (word 0b01010#5 0x00#8 0xF010#16) 4)
      (fun t => decide (PinWord.data t.pinsOut = 0x18#8)) = true := by
  decide

/-- P2 step 12: bank 16 lies outside bank storage. -/
theorem test_memRdBankwin_out_of_range :
    faults (busStepOf { small with bankIndex := 16 } (word 0b01010#5 0x00#8 0xF000#16) 4)
      (.bankOutOfRange 0xF000#16 16) = true := by
  decide

/-- V28, V29, V30. -/
theorem test_memRdInput :
    after (busStepOf small (word 0b01010#5 0x00#8 0xF800#16) 4) (fun t => decide (t.pinsOut = 0x4A05F800#32)) = true ∧
    after (busStepOf small (word 0b01010#5 0x00#8 0xF803#16) 4) (fun t => decide (t.pinsOut = 0x4A5AF803#32)) = true ∧
    after (busStepOf small (word 0b01010#5 0x77#8 0xF808#16) 4) (fun t => decide (t.pinsOut = 0x4A00F808#32)) = true := by
  decide

/-- V32. -/
theorem test_memRdUnmapped :
    after (busStepOf small (word 0b01010#5 0x77#8 0xFFFF#16) 4) (fun t => decide (t.pinsOut = 0x4A00FFFF#32)) = true := by
  decide

/-- The example of R104. -/
theorem test_memWrWorkram :
    after (busStepOf small (word 0b10010#5 0x11#8 0xC124#16) 4)
      (fun t => decide (t.workRam = [(0x123, 0x7E#8), (0x124, 0x11#8)])) = true := by
  decide

/-- The example of R105: slot 5 of TX, through its attribute byte. -/
theorem test_memWrTxram :
    after (busStepOf small (word 0b10010#5 0x24#8 0xD405#16) 4)
      (fun t => decide (t.tileRam.tx = [(5, 0xF0#8), (0x405, 0x24#8)] ∧
        t.dirty = ⟨[false, false, false, false, false, true], List.replicate 6 false, List.replicate 6 false⟩ ∧
        t.outbox.head? = some (.markTileDirty .tx 5))) = true := by
  decide

/-- The example of R106: `off = HALF[FG]` is slot 0. -/
theorem test_memWrFgram :
    after (busStepOf small (word 0b10010#5 0x11#8 0xDA00#16) 4)
      (fun t => decide (t.tileRam.fg = [(0, 0x34#8), (0x200, 0x11#8)] ∧ t.outbox.head? = some (.markTileDirty .fg 0)))
      = true := by
  decide

/-- The example of R107: BG slot 0x1FF; a byte of 0 leaves the list. -/
theorem test_memWrBgram :
    after (busStepOf small (word 0b10010#5 0x00#8 0xDFFF#16) 4)
      (fun t => decide (t.tileRam.bg = [(0x1FF, 0xFF#8)] ∧ t.outbox.head? = some (.markTileDirty .bg 0x1FF))) = true := by
  decide

/-- The example of R108. -/
theorem test_memWrSprram :
    after (busStepOf small (word 0b10010#5 0x01#8 0xE000#16) 4)
      (fun t => decide (t.spriteRam = [(0, 0x01#8)] ∧ t.outbox = [.pins 0x5201E000#32])) = true := by
  decide

/-- V51: an odd offset sets red and green. -/
theorem test_memWrPalram_odd :
    after (busStepOf small (word 0b10010#5 0xA5#8 0xE801#16) 4)
      (fun t => decide (t.palette = [⟨0xAA, 0x55, 0x33, 0xFF⟩, ⟨1, 2, 3, 4⟩] ∧ t.paletteRam = [(1, 0xA5#8)])) = true := by
  decide

/-- V53: an even offset sets blue from its low nibble. -/
theorem test_memWrPalram_even :
    after (busStepOf small (word 0b10010#5 0xFC#8 0xE800#16) 4)
      (fun t => decide (t.palette = [⟨0x11, 0x22, 0xCC, 0xFF⟩, ⟨1, 2, 3, 4⟩] ∧ t.paletteRam = [(0, 0xFC#8)])) = true := by
  decide

/-- V3. -/
theorem test_memWrRom :
    after (busStepOf small (word 0b10010#5 0xFF#8 0x0000#16) 4)
      (fun t => decide (t.rom = small.rom ∧ t.pinsOut = 0x52FF0000#32)) = true := by
  decide

/-- V35: the third byte is stored and the offset sent again. -/
theorem test_memWrScrollfg :
    after (busStepOf small (word 0b10010#5 0x99#8 0xF802#16) 4)
      (fun t => decide (t.scroll.fg = ⟨0x20, 1, 0x99⟩ ∧ t.scrollX = ⟨0x130, 9⟩ ∧
        t.outbox.head? = some (.setScrollX .fg 0x130))) = true := by
  decide

/-- V38: with a correction of -8 a zero scroll is sent as -8. -/
theorem test_memWrScrollbg :
    after (busStepOf { small with cfg := { Config.test with scrollCorrection := -8 } }
        (word 0b10010#5 0x00#8 0xF803#16) 4)
      (fun t => decide (t.scrollX = ⟨7, -8⟩ ∧ t.outbox.head? = some (.setScrollX .bg (-8)))) = true := by
  decide

/-- V24. -/
theorem test_memWrBanksel :
    after (busStepOf small (word 0b10010#5 0xFF#8 0xF808#16) 4) (fun t => decide (t.bankIndex = 31)) = true := by
  decide

/-- V27. -/
theorem test_memWrBankwin :
    after (busStepOf small (word 0b10010#5 0x55#8 0xF010#16) 4)
      (fun t => decide (t.rom = small.rom ∧ t.bankIndex = 3)) = true := by
  decide

/-- V31. -/
theorem test_memWrUnmapped :
    after (busStepOf small (word 0b10010#5 0x01#8 0xF80F#16) 4)
      (fun t => decide (t.inputs = small.inputs ∧ t.bankIndex = 3 ∧ t.scroll = small.scroll)) = true := by
  decide

/-- V95: the acknowledge is set and INT is 0 in the same step. -/
theorem test_inta :
    after (busStepOf small (word 0b00101#5 0x00#8 0x0000#16) 4)
      (fun t => decide (t.timing = ⟨76, 8, true⟩) && !t.timing.intLine) = true := by
  decide

/-- V96: the opening step's own acknowledge masks the window. -/
theorem test_inta_at_opening :
    after (busStepOf { small with timing := ⟨4, 0, false⟩ } (word 0b00101#5 0x00#8 0x0000#16) 4)
      (fun t => decide (t.timing = ⟨100, 20, true⟩) && !t.timing.intLine) = true := by
  decide

/-- V39. -/
theorem test_ioRd :
    after (busStepOf small (word 0b01100#5 0x77#8 0xF800#16) 4) (fun t => decide (t.pinsOut = 0x4C00F800#32)) = true := by
  decide

/-- V99. -/
theorem test_ioWr :
    after (busStepOf small (word 0b10100#5 0x12#8 0x0000#16) 4)
      (fun t => decide (t.timing = ⟨76, 8, false⟩ ∧ t.pinsOut = 0x54120000#32)) = true := by
  decide

/-- V41. -/
theorem test_ioIdle :
    after (busStepOf small (word 0b00100#5 0x33#8 0x0000#16) 4)
      (fun t => decide (t = { small with
        timing := ⟨76, 8, false⟩, pinsOut := 0x44330000#32, outbox := [.pins 0x44330000#32] })) = true := by
  decide

/-- V42. -/
theorem test_memIdle :
    after (busStepOf small (word 0b00010#5 0x00#8 0xD000#16) 4)
      (fun t => decide (t.dirty = small.dirty ∧ t.outbox = [.pins 0x4200D000#32])) = true := by
  decide

/-- V82 and V84: the remainder is kept, and the vblank countdown stops at 0. -/
theorem test_noRequest_timing :
    after (busStepOf { small with timing := ⟨3, 0, false⟩ } 0 4)
      (fun t => decide (t.timing = ⟨99, 20, false⟩ ∧ t.pinsOut = 0x40000000#32)) = true ∧
    after (busStepOf { small with timing := ⟨80, 3, false⟩ } 0 4)
      (fun t => decide (t.timing = ⟨76, 0, false⟩ ∧ t.pinsOut = 0#32)) = true := by
  decide

/-- V87 and V92: a window restarts at full length, and one re-add is made however long the step. -/
theorem test_noRequest_overrun :
    after (busStepOf { small with timing := ⟨2, 5, true⟩ } 0 4) (fun t => decide (t.timing = ⟨98, 20, false⟩)) = true ∧
    after (busStepOf { small with timing := ⟨50, 0, false⟩ } 0 250)
      (fun t => decide (t.timing = ⟨-100, 20, false⟩)) = true := by
  decide

/-- V43, V44, V45. -/
theorem test_illegal_pins :
    faults (busStepOf small 0x1A00C000#32 4) (.illegalPins 0x1A00C000#32) = true ∧
    faults (busStepOf small 0x1300C000#32 4) (.illegalPins 0x1300C000#32) = true ∧
    faults (busStepOf small 0x0600C000#32 4) (.illegalPins 0x0600C000#32) = true := by
  decide

/-! ### One step each: host rows -/

/-- V126: a re-initialisation clears a fault and the registers. -/
theorem test_hostReset :
    after (hostStepOf { small with fault := some (.illegalPins 0) } 0b00000000#8 HostOperands.zero)
      (fun t => decide (t.fault = none ∧ t.bankIndex = 0 ∧ t.workRam = [] ∧ t.timing = ⟨100, 0, false⟩)) = true := by
  decide

/-- V125: an odd tile RAM gives no state. -/
theorem test_hostReset_refuses :
    launchOk { Launch.bare with cfg := { Config.test with tileRam := ⟨⟨0xD000, 0x7FF⟩, ⟨0xD800, 0x400⟩, ⟨0xDC00, 0x400⟩⟩ } }
      = false := by
  decide

/-- HOST.BUS_STEP carries its pin word and ticks. -/
theorem test_hostBusStep :
    after (hostStepOf small 0b00000001#8 { HostOperands.zero with pins := word 0b10010#5 0x07#8 0xF808#16, ticks := 5 })
      (fun t => decide (t.bankIndex = 0 ∧ t.timing = ⟨75, 7, false⟩)) = true := by
  decide

/-- V60 and the first invalid slot of V69. -/
theorem test_hostTileInfoTx :
    after (hostStepOf small 0b00010000#8 { HostOperands.zero with index := 5 })
      (fun t => decide (t.outbox = [.tileInfo .tx 5 ⟨0x3F0, 0x2⟩])) = true ∧
    faults (hostStepOf small 0b00010000#8 { HostOperands.zero with index := 0x400 }) (.slotOutOfRange .tx 0x400)
      = true := by
  decide

/-- V64. -/
theorem test_hostTileInfoFg :
    after (hostStepOf small 0b00010001#8 { HostOperands.zero with index := 0 })
      (fun t => decide (t.outbox = [.tileInfo .fg 0 ⟨0x634, 0x5⟩])) = true := by
  decide

/-- V66. -/
theorem test_hostTileInfoBg :
    after (hostStepOf small 0b00010010#8 { HostOperands.zero with index := 0x1FF })
      (fun t => decide (t.outbox = [.tileInfo .bg 0x1FF ⟨0x7FF, 0x0⟩])) = true := by
  decide

/-- The index 1024 of V57, and an entry as it stands. -/
theorem test_hostPalLookup :
    after (hostStepOf small 0b00100000#8 { HostOperands.zero with index := 1 })
      (fun t => decide (t.outbox = [.colour 1 ⟨1, 2, 3, 4⟩])) = true ∧
    faults (hostStepOf small 0b00100000#8 { HostOperands.zero with index := 1024 })
      (.paletteIndexOutOfRange 1024 none) = true := by
  decide

/-- V124. -/
theorem test_hostInputSet :
    after (hostStepOf small 0b01010010#8 { HostOperands.zero with value := 0x80#8 })
      (fun t => decide (t.inputs = ⟨0x05, 0x06, 0x80⟩)) = true := by
  decide

/-- A reserved selector is refused by name. -/
theorem test_reserved_selector : hostStepOf small 0x53#8 HostOperands.zero = .refused (.reservedHostOp 0x53#8) := rfl

/-- `small` with short tile layers, so that a whole outbox can be compared. -/
def tiny : State :=
  { small with
    cfg := { Config.test with tileRam := ⟨⟨0xD000, 8⟩, ⟨0xD800, 8⟩, ⟨0xDC00, 8⟩⟩, bgConst := 1 }
    tileRam := ⟨[(2, 0x45), (6, 0x31)], [], []⟩
    tileCache := ⟨[⟨9, 9⟩, ⟨9, 9⟩, ⟨9, 9⟩, ⟨9, 9⟩], [⟨9, 9⟩, ⟨9, 9⟩, ⟨9, 9⟩, ⟨9, 9⟩], [⟨9, 9⟩, ⟨9, 9⟩, ⟨9, 9⟩, ⟨9, 9⟩]⟩
    dirty := ⟨[false, false, true, false], [false, false, false, false], [false, false, false, false]⟩ }

/-- V110, V114: the background shows, and the one dirty slot is decoded, its flag cleared. -/
theorem test_hostDraw :
    after (hostStepOf tiny 0b00110000#8 HostOperands.zero)
      (fun t => decide (t.frame = List.replicate 4 (List.replicate 4 ⟨1, 2, 3, 4⟩) ∧
        t.outbox = [.tileInfo .tx 2 ⟨0x145, 0x3⟩] ∧ t.tileCache.tx = [⟨9, 9⟩, ⟨9, 9⟩, ⟨0x145, 3⟩, ⟨9, 9⟩] ∧
        t.dirty.tx = [false, false, false, false])) = true := by
  decide

/-- V112: no colour at (0, 0). -/
theorem test_hostDraw_fault :
    faults (hostStepOf { tiny with cfg := { tiny.cfg with bgConst := 1024 } } 0b00110000#8 HostOperands.zero)
      (.paletteIndexOutOfRange 1024 (some (0, 0))) = true := by
  decide

/-- V120: slices of 7 and 4 ticks for a target of 10. -/
theorem test_hostRunFrame :
    after (hostStepOf { tiny with env := ⟨[], [10], [[(0, 3), (0, 4)], [(0, 4)], [(0, 9)]], 0⟩ } 0b01000000#8
        HostOperands.zero)
      (fun t => decide (t.timing = ⟨69, 1, false⟩ ∧ t.env.slices = [[(0, 9)]] ∧ t.env.pacing = [] ∧
        t.outbox = [.pins 0x40000000#32, .pins 0x40000000#32, .pins 0x40000000#32, .ticksExecuted 11,
          .tileInfo .tx 2 ⟨0x145, 0x3⟩])) = true := by
  decide

/-- I13: a slice of no ticks while ticks remain. -/
theorem test_hostRunFrame_stalled :
    faults (hostStepOf { tiny with env := ⟨[], [10], [[(0, 0)]], 0⟩ } 0b01000000#8 HostOperands.zero) .engineStalled
      = true := by
  decide

/-- A faulted state takes no step (R38), and a state with no call waiting stays (R7). -/
theorem test_no_step :
    faults (busStepOf (small.afterFault (.illegalPins 7)) 0 4) (.illegalPins 7) = true ∧
    after (step small) (fun t => decide (t = small)) = true := by
  decide

/-- R9 (a) and (h) ask of the input-port map, not of an entry hidden by an earlier one at its address (here in work RAM):
the map of the first list has no port there, that of the second has one. -/
theorem test_hiddenPort :
    configOk { Config.test with inputPorts := [(0xC000, none), (0xC000, some .zero)] } = true ∧
    configOk { Config.test with inputPorts := [(0xC000, some .zero), (0xC000, none)] } = false := by
  decide

/-- V50. -/
theorem test_nibbles :
    [0x00#8, 0xA5#8, 0xFF#8, 0x0F#8, 0xF0#8, 0x12#8, 0x9C#8].map (fun b => (dupHi b, dupLo b)) =
      [(0x00#8, 0x00#8), (0xAA#8, 0x55#8), (0xFF#8, 0xFF#8), (0x00#8, 0xFF#8), (0xFF#8, 0x00#8), (0x11#8, 0x22#8),
        (0x99#8, 0xCC#8)] := by
  decide

/-- V59. -/
theorem test_packColour : packColour ⟨0xAA, 0x55, 0xCC, 0xFF⟩ = 0xFFCC55AA#32 := by decide

/-! ### Witnesses: states and operands that meet the hypotheses of the statements -/

/-- The board a launch of `cfg` with zero images gives. -/
def boardOf (cfg : Config) : State := State.initial { Launch.bare with cfg := cfg } Collaborators.quiet []

theorem boardOf_ready {cfg : Config} (h : launchOk { Launch.bare with cfg := cfg } = true) : Ready (boardOf cfg) :=
  ⟨inv_initial h _ _, rfl⟩

/-- TEST, right after initialisation. -/
def board : State := boardOf Config.test

theorem board_ready : Ready board := boardOf_ready (by decide)

theorem board_cfg : board.cfg = Config.test := rfl

/-- A launch whose third ROM is CPU-visible and holds 0x100 bytes. -/
def thirdRom : Launch :=
  { Launch.bare with
    cfg := { Config.test with rom2 := ⟨some 0xFF00, 0x100⟩ }
    images := { Launch.bare.images with fixed2 := some (.zeros 0x100) } }

def thirdBoard : State := State.initial thirdRom Collaborators.quiet []

theorem thirdBoard_ready : Ready thirdBoard := ⟨inv_initial (l := thirdRom) (by decide) _ _, rfl⟩

/-- Every row with an address range, at both ends of it. -/
def edgeRows : List Instr :=
  [.illegalMemio true false true (ops 0 0), .inta false true (ops 0 0), .noRequest true false true (ops 0 0),
   .memRdGeneric true (ops 0x0000#16 0), .memRdGeneric false (ops 0xEFFF#16 0), .memRdBankwin true (ops 0xF000#16 0),
   .memRdBankwin false (ops 0xF7FF#16 0), .memRdInput false (ops 0xF800#16 0), .memRdInput true (ops 0xF80F#16 0),
   .memRdUnmapped false (ops 0xF810#16 0), .memRdUnmapped true (ops 0xFFFF#16 0)] ++
  ([.memWrWorkram (ops 0xC000#16 1), .memWrWorkram (ops 0xCFFF#16 1), .memWrTxram (ops 0xD000#16 1),
    .memWrTxram (ops 0xD7FF#16 1), .memWrFgram (ops 0xD800#16 1), .memWrFgram (ops 0xDBFF#16 1),
    .memWrBgram (ops 0xDC00#16 1), .memWrBgram (ops 0xDFFF#16 1), .memWrSprram (ops 0xE000#16 1),
    .memWrSprram (ops 0xE7FF#16 1), .memWrPalram (ops 0xE800#16 1), .memWrPalram (ops 0xEFFF#16 1)] ++
   [.memWrRom (ops 0x0000#16 1), .memWrRom (ops 0xBFFF#16 1), .memWrScrollfg (ops 0xF800#16 1),
    .memWrScrollfg (ops 0xF802#16 1), .memWrScrollbg (ops 0xF803#16 1), .memWrScrollbg (ops 0xF805#16 1),
    .memWrBanksel (ops 0xF808#16 1), .memWrBankwin (ops 0xF000#16 1), .memWrBankwin (ops 0xF7FF#16 1),
    .memWrUnmapped (ops 0xF806#16 1), .memWrUnmapped (ops 0xF80F#16 1), .memWrUnmapped (ops 0xFFFF#16 1)])

/-- DecodeOfEncodeIsIdentity, and the premise `wf` of each row's statement. -/
theorem witness_wf : ∀ i ∈ edgeRows, i.wf Config.test = true := by decide

/-- ReservedSelectorIsRefused, both clauses. -/
theorem witness_reservedSelector :
    0x13#8 ∉ selectors ∧ (board.withCall (.host 0x13#8 HostOperands.zero)).fault = none ∧
    (board.withCall (.host 0x13#8 HostOperands.zero)).env.calls = .host 0x13#8 HostOperands.zero :: [] ∧
    0b01010010#8 ∈ selectors :=
  ⟨by decide, rfl, rfl, by decide⟩

/-- StepRunsDecodedCall, both clauses. -/
theorem witness_stepRuns :
    (board.withCall (.bus 0x04000000#32 4)).env.calls = .bus 0x04000000#32 4 :: [] ∧
    decode Config.test (.bus 0x04000000#32 4) = .ok (.ioIdle (ops 0 0)) ∧ board.env.calls = [] :=
  ⟨rfl, congrArg Except.ok (show decodeBus Config.test 0x04000000#32 4 = .ioIdle (ops 0 0) by decide), rfl⟩

/-- PlacedWordIsRunNext, for a pin word and for a selector. -/
theorem witness_placedWord :
    tableCall 32 0x04000000 = some (.bus 0x04000000#32 0) ∧
    decode Config.test (.bus 0x04000000#32 0) = .ok (.ioIdle ⟨0, 0, false, false, false, 0⟩) ∧
    tableCall 8 0x30 = some (.host 0x30#8 HostOperands.zero) ∧
    decode Config.test (.host 0x30#8 HostOperands.zero) = .ok .hostDraw :=
  ⟨rfl, congrArg Except.ok (show decodeBus Config.test 0x04000000#32 0 = .ioIdle ⟨0, 0, false, false, false, 0⟩ by decide),
   rfl, rfl⟩

/-- ResetRebuildsEverything. -/
theorem witness_launchOk : launchOk Launch.bare = true ∧ launchOk thirdRom = true := by decide

/-- IncompleteLaunchIsRefused, the refusing clause: an odd tile RAM. -/
theorem witness_launchRefused :
    ¬ LaunchInWords { Launch.bare with cfg := { Config.test with tileRam := ⟨⟨0xD000, 7⟩, ⟨0xD800, 8⟩, ⟨0xDC00, 8⟩⟩ } } :=
  fun h => absurd (h.tileEven .tx) (by decide)

/-- Two regions the check finds apart share no address. -/
theorem apart_of {r q : Region} (h : regionsDisjoint r q = true) : Apart r q := (regionsDisjoint_iff r q).mp h

/-- The store regions of TEST. -/
def testStores : List Region :=
  [⟨0x0000, 0x8000⟩, ⟨0x8000, 0x4000⟩, ⟨0xC000, 0x1000⟩, ⟨0xD000, 0x800⟩, ⟨0xD800, 0x400⟩, ⟨0xDC00, 0x400⟩,
   ⟨0xE000, 0x800⟩, ⟨0xE800, 0x800⟩]

/-- The register regions of TEST. -/
def testRegisters : List Region :=
  [⟨0xF800, 3⟩, ⟨0xF803, 3⟩, ⟨0xF808, 1⟩, ⟨0xF000, 0x800⟩] ++ Config.test.inputPorts.map fun e => ⟨e.1, 1⟩

theorem mem_testStores {r : Region} (h : IsStoreRegion Config.test r) : r ∈ testStores := by
  rcases h with h | h | h | h | ⟨l, h⟩ | h | h
  · cases h; decide
  · cases h; decide
  · cases h
  · subst h; decide
  · subst h; cases l <;> decide
  · subst h; decide
  · subst h; decide

theorem mem_testRegisters {r : Region} (h : IsRegisterRegion Config.test r) : r ∈ testRegisters := by
  rcases h with ⟨l, h⟩ | h | h | ⟨a, src, hm, h⟩
  · subst h; cases l <;> decide
  · subst h; decide
  · subst h; decide
  · subst h
    exact List.mem_append_right _ (List.mem_map.mpr ⟨_, mem_of_findPort hm, rfl⟩)

/-- IncompleteLaunchIsRefused, the completing clause. -/
theorem witness_launchInWords : LaunchInWords Launch.bare where
  inSpace r h := by
    have hs : ∀ r ∈ testStores ++ testRegisters, r.start + r.size ≤ 2 ^ 16 := by decide
    exact hs r (List.mem_append.mpr (h.imp mem_testStores mem_testRegisters))
  storesApart := by
    have h : testStores.Pairwise fun r q => regionsDisjoint r q = true := by decide
    exact h.imp apart_of
  tileEven k := by cases k <;> decide
  paletteSize := rfl
  tilesSuffice k := by cases k <;> decide
  ticks := by decide
  shift := by decide
  registersApart r q hr hq := by
    have h : ∀ r ∈ testRegisters, ∀ q ∈ testStores, regionsDisjoint r q = true := by decide
    exact apart_of (h r (mem_testRegisters hr) q (mem_testStores hq))
  bases := by decide
  rows := by decide
  columns := by decide
  scrollOffsets := by decide
  fixed0 := ⟨_, rfl, rfl, rfl, by decide⟩
  fixed1 := ⟨_, rfl, rfl, rfl, by decide⟩
  fixed2 := ⟨_, rfl, rfl, rfl, by decide⟩
  bank := ⟨_, rfl, rfl, rfl, by decide⟩
  tileRoms k := by cases k <;> exact ⟨_, rfl, rfl, by decide⟩
  spriteGraphics := ⟨rfl, by decide⟩

/-- The hypotheses of GenericReadReturnsStoredByte. -/
def GenericHyps (a : BitVec 16) (s : State) (st : Store) (r : Region) : Prop :=
  Ready s ∧
  ((st = .rom .fixed0 ∧ s.cfg.rom0.start = some r.start ∧ s.cfg.rom0.size = r.size) ∨
   (st = .rom .fixed1 ∧ s.cfg.rom1.start = some r.start ∧ s.cfg.rom1.size = r.size) ∨
   (st = .rom .fixed2 ∧ s.cfg.rom2.start = some r.start ∧ s.cfg.rom2.size = r.size) ∨
   (st = .work ∧ r = s.cfg.workRam) ∨ (∃ l, st = .tile l ∧ r = s.cfg.tileRam.get l) ∨
   (st = .sprite ∧ r = s.cfg.spriteRam) ∨ (st = .palette ∧ r = s.cfg.paletteRam)) ∧
  r.start ≤ a.toNat ∧ a.toNat < r.start + r.size

/-- GenericReadReturnsStoredByte: each region at its first or last address. -/
theorem witness_genericRead :
    GenericHyps 0x0000#16 thirdBoard (.rom .fixed0) ⟨0x0000, 0x8000⟩ ∧
    GenericHyps 0x7FFF#16 thirdBoard (.rom .fixed0) ⟨0x0000, 0x8000⟩ ∧
    GenericHyps 0xBFFF#16 thirdBoard (.rom .fixed1) ⟨0x8000, 0x4000⟩ ∧
    GenericHyps 0xFF00#16 thirdBoard (.rom .fixed2) ⟨0xFF00, 0x100⟩ ∧
    GenericHyps 0xC000#16 thirdBoard .work ⟨0xC000, 0x1000⟩ ∧
    GenericHyps 0xD7FF#16 thirdBoard (.tile .tx) ⟨0xD000, 0x800⟩ ∧
    GenericHyps 0xD800#16 thirdBoard (.tile .fg) ⟨0xD800, 0x400⟩ ∧
    GenericHyps 0xDFFF#16 thirdBoard (.tile .bg) ⟨0xDC00, 0x400⟩ ∧
    GenericHyps 0xE000#16 thirdBoard .sprite ⟨0xE000, 0x800⟩ ∧
    GenericHyps 0xEFFF#16 thirdBoard .palette ⟨0xE800, 0x800⟩ :=
  ⟨⟨thirdBoard_ready, .inl ⟨rfl, rfl, rfl⟩, by decide, by decide⟩,
   ⟨thirdBoard_ready, .inl ⟨rfl, rfl, rfl⟩, by decide, by decide⟩,
   ⟨thirdBoard_ready, .inr (.inl ⟨rfl, rfl, rfl⟩), by decide, by decide⟩,
   ⟨thirdBoard_ready, .inr (.inr (.inl ⟨rfl, rfl, rfl⟩)), by decide, by decide⟩,
   ⟨thirdBoard_ready, .inr (.inr (.inr (.inl ⟨rfl, rfl⟩))), by decide, by decide⟩,
   ⟨thirdBoard_ready, .inr (.inr (.inr (.inr (.inl ⟨.tx, rfl, rfl⟩)))), by decide, by decide⟩,
   ⟨thirdBoard_ready, .inr (.inr (.inr (.inr (.inl ⟨.fg, rfl, rfl⟩)))), by decide, by decide⟩,
   ⟨thirdBoard_ready, .inr (.inr (.inr (.inr (.inl ⟨.bg, rfl, rfl⟩)))), by decide, by decide⟩,
   ⟨thirdBoard_ready, .inr (.inr (.inr (.inr (.inr (.inl ⟨rfl, rfl⟩))))), by decide, by decide⟩,
   ⟨thirdBoard_ready, .inr (.inr (.inr (.inr (.inr (.inr ⟨rfl, rfl⟩))))), by decide, by decide⟩⟩

/-- BankWindowReadReturnsBankByte at the first and the last byte of bank storage; BankOutsideStorageFaults at the first
bank beyond it. -/
theorem witness_bankWindow :
    board.fault = none ∧ (Instr.memRdBankwin false (ops 0xF000#16 0)).wf board.cfg = true ∧
    (board.bankIndex.toNat + 1) * board.cfg.bankWindow.size ≤ board.cfg.bankStorageSize ∧
    ((15#8).toNat + 1) * board.cfg.bankWindow.size ≤ board.cfg.bankStorageSize ∧
    (Instr.memRdBankwin true (ops 0xF7FF#16 0)).wf board.cfg = true ∧
    board.cfg.bankStorageSize < ((16#8).toNat + 1) * board.cfg.bankWindow.size := by
  decide

/-- InputReadReturnsPort: each kind of source. -/
theorem witness_inputRead :
    small.fault = none ∧
    ([0xF800#16, 0xF801#16, 0xF802#16, 0xF803#16, 0xF804#16, 0xF80F#16].all fun a =>
      (Instr.memRdInput false (ops a 0)).wf small.cfg) = true ∧
    small.cfg.inputPort 0xF800 = some (.reg 0) ∧ small.cfg.inputPort 0xF801 = some (.reg 1) ∧
    small.cfg.inputPort 0xF802 = some (.reg 2) ∧ small.cfg.inputPort 0xF803 = some (.const 0x5A) ∧
    small.cfg.inputPort 0xF80F = some .zero :=
  ⟨rfl, by decide, by decide, by decide, by decide, by decide, by decide⟩

/-- The statements whose premises are `Ready` (or no fault) and a row that is well formed: UnmappedReadReturnsZero,
WorkRamWriteStoresByte, TileRamWriteMarksSlot, SpriteRamWriteStoresByte, PaletteRamWriteUpdatesCache,
ReadOnlyAndUnmappedWritesAreDropped, ScrollWritePushesOffset, BankSelectStoresShiftedByte and AcknowledgeSetsLatch, each
row at both ends of its range. IoCyclesHaveNoPorts, IdleCyclesOnlyLetTimePass, IllegalPinsFault and InputSetStoresByte
have the premise that no fault is recorded alone. -/
theorem witness_rows : Ready board ∧ ∀ i ∈ edgeRows, i.wf board.cfg = true :=
  ⟨board_ready, by rw [board_cfg]; exact witness_wf⟩

/-- TileRamWriteMarksSlot: a row of each layer. -/
theorem witness_tileRam :
    (Instr.memWrTxram (ops 0xD7FF#16 1)).wf board.cfg = true ∧ (Instr.memWrFgram (ops 0xD800#16 1)).wf board.cfg = true ∧
    (Instr.memWrBgram (ops 0xDFFF#16 1)).wf board.cfg = true := by
  decide

/-- PaletteRamWriteUpdatesCache: both clauses, at the ends of palette RAM. -/
theorem witness_palette :
    (Instr.memWrPalram (ops 0xE800#16 1)).wf board.cfg = true ∧
    ((0xE800#16).toNat - board.cfg.paletteRam.start) % 2 = 0 ∧
    (Instr.memWrPalram (ops 0xEFFF#16 1)).wf board.cfg = true ∧
    ((0xEFFF#16).toNat - board.cfg.paletteRam.start) % 2 = 1 := by
  decide

/-- BusStepCompletes: a step with no request, and a window read of bank 0. -/
theorem witness_busStepCompletes :
    board.fault = none ∧ decodeBus board.cfg 0 1 = .noRequest false false false ⟨0, 0, false, false, false, 1⟩ ∧
    decodeBus board.cfg 0x0A00F000#32 1 = .memRdBankwin false ⟨0xF000#16, 0, false, false, false, 1⟩ ∧
    (board.bankIndex.toNat + 1) * board.cfg.bankWindow.size ≤ board.cfg.bankStorageSize := by
  decide

/-- `small` with a timing state. -/
def timed (t : Timing) : State := { small with timing := t }

/-- The statements on completed bus steps: a read, an IO read, an acknowledge, a write and an idle cycle complete. -/
theorem witness_busSteps :
    (∃ t, exec (.hostBusStep 0x0A00C000#32 4) small = .next t) ∧ (∃ t, exec (.hostBusStep 0x0C000000#32 4) small = .next t) ∧
    (∃ t, exec (.hostBusStep 0x05000000#32 4) small = .next t) ∧
    (∃ t, exec (.hostBusStep 0x127EC000#32 4) small = .next t) ∧
    ∃ t, exec (.hostBusStep 0x02000000#32 4) small = .next t :=
  ⟨exists_next (by decide), exists_next (by decide), exists_next (by decide), exists_next (by decide),
   exists_next (by decide)⟩

/-- InterruptWindowIsPeriodic. -/
theorem witness_periodic :
    board.fault = none ∧ board.timing = ⟨board.cfg.tpf, 0, false⟩ ∧ board.cfg.vblankTicks < board.cfg.tpf ∧ 1 ≤ 100 ∧
    [0, mrd 0, mwr 0x1000 7] ≠ [] ∧ (∀ p ∈ [0, mrd 0, mwr 0x1000 7], classify (Ctl.ofPins p) ≠ .inta) ∧
    ∃ t, busSteps ([0, mrd 0, mwr 0x1000 7].map fun p => (p, 1)) board = .next t := by
  refine ⟨by decide, by decide, by decide, by decide, by decide, ?_, exists_next (by decide)⟩
  simp only [List.forall_mem_cons]
  exact ⟨by decide, by decide, by decide, by simp⟩

/-- AcknowledgeMasksUntilNextWindow: the latch is set, and a step opens no window, opens one, or is an acknowledge. -/
theorem witness_acknowledged :
    (∃ t, exec (.hostBusStep 0 4) (timed ⟨5, 12, true⟩) = .next t) ∧ (timed ⟨5, 12, true⟩).timing.intAck = true ∧
    0 < (timed ⟨5, 12, true⟩).timing.vsyncTicks - (4 : Nat) ∧
    (∃ t, exec (.hostBusStep 0 4) (timed ⟨4, 12, true⟩) = .next t) ∧
    (timed ⟨4, 12, true⟩).timing.vsyncTicks - (4 : Nat) ≤ 0 ∧ classify (Ctl.ofPins 0) ≠ .inta ∧
    (∃ t, exec (.hostBusStep 0x05000000#32 4) (timed ⟨4, 12, true⟩) = .next t) ∧
    classify (Ctl.ofPins 0x05000000#32) = .inta :=
  ⟨exists_next (by decide), rfl, by decide, exists_next (by decide), by decide, by decide, exists_next (by decide),
   by decide⟩

/-- NoVblankMeansNoInterrupt, at the step that would open a window. -/
theorem witness_noVblank :
    (∃ t, exec (.hostBusStep 0 1) { small with cfg := { Config.test with vblankTicks := 0 }, timing := ⟨1, 0, false⟩ } = .next t) ∧
    ({ Config.test with vblankTicks := 0 } : Config).vblankTicks = 0 :=
  ⟨exists_next (by decide), rfl⟩

/-- TimingCountersKeepBounds: `n = TPF` at both ends of the range. -/
theorem witness_timingBounds :
    (∃ t, exec (.hostBusStep 0 100) (timed ⟨1, 0, false⟩) = .next t) ∧
    (∃ t, exec (.hostBusStep 0 100) (timed ⟨100, 20, false⟩) = .next t) ∧ 100 ≤ board.cfg.tpf := by
  exact ⟨exists_next (by decide), exists_next (by decide), by decide⟩

/-- BusReadAfterWriteReturnsByte: each kind of RAM. -/
theorem witness_readAfterWrite :
    Ready board ∧ board.cfg.workRam.contains (0xCFFF#16).toNat = true ∧
    (board.cfg.tileRam.get .bg).contains (0xDC00#16).toNat = true ∧
    board.cfg.spriteRam.contains (0xE7FF#16).toNat = true ∧ board.cfg.paletteRam.contains (0xE800#16).toNat = true :=
  ⟨board_ready, by decide, by decide, by decide, by decide⟩

/-- BankSwitchIsSeenByNextRead, at the last bank. -/
theorem witness_bankSwitch :
    board.fault = none ∧ board.cfg.bankselAddr < 65536 ∧
    (Instr.memWrBanksel ⟨BitVec.ofNat 16 board.cfg.bankselAddr, 0x78#8, false, false, false, 4⟩).wf board.cfg = true ∧
    (Instr.memRdBankwin false ⟨0xF7FF#16, 0, false, false, false, 4⟩).wf board.cfg = true ∧
    ((0x78#8).toNat / 2 ^ board.cfg.bankShift + 1) * board.cfg.bankWindow.size ≤ board.cfg.bankStorageSize := by
  decide

/-- OutsideEveryRangeNothingHappens, at both ends of what REF leaves unmapped. -/
theorem witness_outside :
    board.fault = none ∧
    (∀ r, IsStoreRegion board.cfg r → r.contains (0xF810#16).toNat = false ∧ r.contains (0xFFFF#16).toNat = false) ∧
    (∀ r, IsRegisterRegion board.cfg r → r.contains (0xF810#16).toNat = false ∧ r.contains (0xFFFF#16).toNat = false) := by
  have h : ∀ r ∈ testStores ++ testRegisters,
      r.contains (0xF810#16).toNat = false ∧ r.contains (0xFFFF#16).toNat = false := by decide
  rw [board_cfg]
  exact ⟨rfl, fun r hr => h r (List.mem_append_left _ (mem_testStores hr)),
    fun r hr => h r (List.mem_append_right _ (mem_testRegisters hr))⟩

/-- TileInfoAnswersSlot and PaletteLookupAnswersEntry: the last index that answers and the first that faults. -/
theorem witness_queries :
    board.fault = none ∧ 0x3FF < board.cfg.half .tx ∧ board.cfg.half .tx ≤ 0x400 ∧ 0x1FF < board.cfg.half .fg ∧
    board.cfg.half .fg ≤ 0x200 ∧ 0x1FF < board.cfg.half .bg ∧ board.cfg.half .bg ≤ 0x200 := by
  decide

/-- TileCodesIndexTheStore. -/
theorem witness_tileCodes : board.Inv ∧ IsTileInfo board .tx 0 ⟨0, 0⟩ :=
  ⟨board_ready.1, by decide, by decide⟩

/-- PaletteWritesCommute: both orders, at the first and the last slot. -/
theorem witness_paletteWrites :
    Ready board ∧ (0xE801#16).toNat = board.cfg.paletteRam.start + 2 * 0 + 1 ∧
    (0xE800#16).toNat = board.cfg.paletteRam.start + 2 * 0 ∧
    (0xEFFF#16).toNat = board.cfg.paletteRam.start + 2 * 1023 + 1 ∧
    (0xEFFE#16).toNat = board.cfg.paletteRam.start + 2 * 1023 :=
  ⟨board_ready, by decide, by decide, by decide, by decide⟩

/-- DrawResolvesThroughPalette: the visible pixels of the board all hold the background constant 5. -/
theorem witness_draw :
    board.fault = none ∧ ∀ y, y < board.cfg.visH → ∀ x, x < board.cfg.visW → board.compose.visiblePixel y x < 1024 := by
  decide

/-- A draw with a colour for every visible pixel completes. -/
theorem exec_draw {s : State} (hf : s.fault = none)
    (h : ∀ y, y < s.cfg.visH → ∀ x, x < s.cfg.visW → s.compose.visiblePixel y x < 1024) :
    exec .hostDraw s = .next s.compose.resolved := by
  simp only [exec, execHostDraw]
  rw [running_of_none hf]
  exact resolve_of_colours fun y x hy hx => by simpa [paletteEntries] using h y (by simpa using hy) x (by simpa using hx)

theorem witness_draw_next : exec .hostDraw board = .next board.compose.resolved := exec_draw rfl witness_draw.2

/-- TEST with sprites painted in rows and rows 1022 to 1025 visible. -/
def tall : Config :=
  { Config.test with bmpH := 1026, overscanRows := 1022, raster := ⟨.keep, .keep, .keep, .rows⟩ }

/-- DrawFaultsAtFirstPixelWithoutColour: row 2 is the first with no colour. -/
theorem witness_drawFault :
    (boardOf tall).fault = none ∧ 2 < tall.visH ∧ 0 < tall.visW ∧ 1024 ≤ (boardOf tall).compose.visiblePixel 2 0 ∧
    ∀ y, y < 2 → ∀ x, x < tall.visW → (boardOf tall).compose.visiblePixel y x < 1024 := by
  decide +kernel

/-- EmptyLayersShowBackground. -/
theorem witness_emptyLayers :
    Ready board ∧ board.cfg.raster = ⟨.keep, .keep, .keep, .keep⟩ ∧ board.cfg.bgConst < 1024 :=
  ⟨board_ready, rfl, by decide⟩

/-- TEST with external rasterizers and no visible row. -/
def hidden : Config :=
  { Config.test with visH := 0, raster := ⟨.external 0, .external 1, .external 2, .external 3⟩ }

/-- LayersArePaintedBackToFront. -/
theorem witness_layers :
    (boardOf hidden).Inv ∧ (boardOf hidden).cfg.raster = ⟨.external 0, .external 1, .external 2, .external 3⟩ ∧
    ∃ t, exec .hostDraw (boardOf hidden) = .next t :=
  ⟨(boardOf_ready (by decide)).1, rfl, _, exec_draw rfl fun _ hy => absurd hy (Nat.not_lt_zero _)⟩

/-- DrawBringsCachesUpToDate and DrawingTwiceGivesSameFrame. -/
theorem witness_drawTwice :
    board.Inv ∧ ∃ t u, exec .hostDraw board = .next t ∧ exec .hostDraw t = .next u := by
  refine ⟨board_ready.1, _, _, witness_draw_next, exec_draw rfl ?_⟩
  decide

/-- The board with pacing answers and slices waiting. -/
def paced (pacing : List Nat) (slices : List Slice) : State :=
  { board with env := { board.env with pacing := pacing, slices := slices } }

/-- RunFrameRunsSlicesThenDrawsOnce: V120, slices of 7 and 4 ticks for a target of 10. -/
theorem witness_runFrame :
    (paced [10] [[(0, 7)], [(0, 4)]]).fault = none ∧ (paced [10] [[(0, 7)], [(0, 4)]]).env.pacing = 10 :: [] ∧
    (paced [10] [[(0, 7)], [(0, 4)]]).env.slices = ([[(0, 7)], [(0, 4)]] : List Slice) ++ [] ∧
    (∀ c ∈ ([[(0, 7)], [(0, 4)]] : List Slice), 1 ≤ (c.map Prod.snd).sum) ∧
    (∀ k, k < 2 → ((((([[(0, 7)], [(0, 4)]] : List Slice)).take k).flatten).map Prod.snd).sum < 10) ∧
    10 ≤ (((([[(0, 7)], [(0, 4)]] : List Slice)).flatten).map Prod.snd).sum ∧
    ∃ u v, busSteps ([[(0, 7)], [(0, 4)]] : List Slice).flatten (paced [] []) = .next u ∧
      exec .hostDraw { u with outbox := u.outbox ++ [.ticksExecuted 11] } = .next v := by
  refine ⟨rfl, rfl, rfl, by decide, by decide, by decide, _, _, rfl, exec_draw rfl ?_⟩
  decide

/-- RunFrameOfNoTicksStillDraws. -/
theorem witness_runFrame_noTicks :
    (paced [0] [[(0, 7)]]).fault = none ∧ (paced [0] [[(0, 7)]]).env.pacing = 0 :: [] ∧
    ∀ y, y < board.cfg.visH → ∀ x, x < board.cfg.visW → (paced [0] [[(0, 7)]]).compose.visiblePixel y x < 1024 :=
  ⟨rfl, rfl, by decide⟩

/-- RunFrameStopsOnFaultOrStall: a first slice with an illegal word, and a first slice of no ticks. -/
theorem witness_runFrame_stops :
    (paced [1] [[(0x18000000#32, 1)]]).fault = none ∧ (paced [1] [[(0x18000000#32, 1)]]).env.pacing = 1 :: [] ∧
    (paced [1] [[(0x18000000#32, 1)]]).env.slices = [(0x18000000#32, 1)] :: [] ∧
    busSteps [(0x18000000#32, 1)] (paced [] []) = .fault (.illegalPins 0x18000000#32) ∧
    (paced [1] [[(0, 0)]]).env.slices = [(0, 0)] :: [] ∧ (∃ u, busSteps [(0, 0)] (paced [] []) = .next u) ∧
    (([(0, 0)] : Slice).map Prod.snd).sum = 0 := by
  have h : faults (busSteps [(0x18000000#32, 1)] (paced [] [])) (.illegalPins 0x18000000#32) = true := by decide
  refine ⟨rfl, rfl, rfl, eq_of_faults h, rfl, exists_next (by decide), rfl⟩

/-- StepKeepsLegality, PaletteStaysCurrent and ScrollStaysCurrent: a legal state whose next step is a scroll write; its
window has been written, and so have both bytes of palette slot 0. -/
def warm : State :=
  { board with
    paletteRam := [(0, 0x0C), (1, 0xA5)]
    palette := board.palette.set 0 ⟨0xAA, 0x55, 0xCC, 0xFF⟩
    scrollX := ⟨0x10, 0x10⟩
    env := { board.env with calls := [.bus 0x1220F800#32 4] } }

theorem witness_stepKeeps : (∃ t, step warm = .next t) ∧ ScrollCurrent warm .fg ∧ ScrollCurrent warm .bg ∧
    PaletteCurrent warm 0 ∧
    (∀ c rest l, warm.env.calls = c :: rest → decode warm.cfg c ≠ .ok (.hostReset l)) := by
  refine ⟨exists_next (by decide), by unfold ScrollCurrent; decide, by unfold ScrollCurrent; decide, ?_, ?_⟩
  · have e : entry warm 0 = ⟨0xAA, 0x55, 0xCC, 0xFF⟩ := by
      have h := board_ready.1.paletteLength
      simp [entry, colourAt, warm, h]
    unfold PaletteCurrent
    rw [e]
    decide
  · intro c rest l h
    cases h
    have hd : decodeBus warm.cfg 0x1220F800#32 4 = .memWrScrollfg (ops 0xF800#16 0x20) := by decide
    simp [decode, hd]

theorem warm_inv : warm.Inv := by
  obtain ⟨h1, h2, h3, h4, h5, h6, h7, h8, h9, h10, h11, h12⟩ := board_ready.1
  refine ⟨h1, ?_, ?_, ?_, h5, h6, h7, h8, h9, h10, h11, h12⟩
  · intro st
    cases st with
    | palette => rfl
    | rom r =>
      cases r with
      | fixed0 => exact h2 (.rom .fixed0)
      | fixed1 => exact h2 (.rom .fixed1)
      | fixed2 => exact h2 (.rom .fixed2)
      | bank => exact h2 (.rom .bank)
    | work => exact h2 .work
    | tile l => exact h2 (.tile l)
    | sprite => exact h2 .sprite
  · intro st
    cases st with
    | palette => rfl
    | rom r =>
      cases r with
      | fixed0 => exact h3 (.rom .fixed0)
      | fixed1 => exact h3 (.rom .fixed1)
      | fixed2 => exact h3 (.rom .fixed2)
      | bank => exact h3 (.rom .bank)
    | work => exact h3 .work
    | tile l => exact h3 (.tile l)
    | sprite => exact h3 .sprite
  · simp only [warm, List.length_set]
    exact h4

/-- FaultedStateTakesNoStep: a faulted state with a call waiting, and an accepted launch. -/
theorem witness_faulted :
    (warm.afterFault (.illegalPins 7)).fault = some (.illegalPins 7) ∧
    (warm.afterFault (.illegalPins 7)).env.calls = .bus 0x1220F800#32 4 :: [] ∧
    (∀ l, Instr.hostDraw ≠ .hostReset l) ∧ launchOk Launch.bare = true :=
  ⟨rfl, rfl, (by intro l h; cases h), by decide⟩

/-- RomsAreNeverWritten, OnlyInputSetWritesInputs, BankAndScrollHaveOneWriter: rows and host calls that complete, a bus
step given as a pin word among them; OnlyBusStepsMoveTime: a host query. -/
theorem witness_writers :
    (∃ t, exec (.memWrRom (ops 0 1)) board = .next t) ∧ (∃ t, exec (.memWrScrollfg (ops 0xF800#16 1)) board = .next t) ∧
    (∃ t, exec (.hostBusStep 0x1218F808#32 4) board = .next t) ∧
    decodeBus board.cfg 0x1218F808#32 4 = .memWrBanksel (ops 0xF808#16 0x18) ∧
    (∃ t, exec (.hostInputSet 2 0x80) board = .next t) ∧ (∀ p n, encode (.hostPalLookup 1023) ≠ .bus p n) ∧
    (∃ t, exec (.hostPalLookup 1023) board = .next t) :=
  ⟨exists_next (by decide), exists_next (by decide), exists_next (by decide), by decide,
   exists_next (by decide), (by intro p n h; cases h), exists_next (by decide)⟩

end Sys2Proof.Tests
end

section
/-! PROOF. The scope of the block (spec/00_scope.md): what one step does, that it keeps the invariant (O6, O53), and
which launches give an initial state (O9). -/

namespace Sys2Proof.Proofs

open Sys2Proof.Machine Sys2Proof.Spec

/-! ### One step -/

theorem step_of_no_call {s : State} (h : s.env.calls = []) : step s = .next s := by
  simp only [step, h, idle]

theorem step_of_decode_ok {s : State} {c : Call} {rest : List Call} {i : Instr} (hc : s.env.calls = c :: rest)
    (hd : decode s.cfg c = .ok i) : step s = exec i (s.beginCall rest) := by
  simp only [step, hc, hd]

theorem step_of_decode_error {s : State} {c : Call} {rest : List Call} {e : DecodeError} (hc : s.env.calls = c :: rest)
    (hd : decode s.cfg c = .error e) : step s = refuseCall e (s.beginCall rest) := by
  simp only [step, hc, hd]

/-- A call with no instruction never completes (R87). -/
theorem refuseCall_ne_next {e : DecodeError} {s t : State} : refuseCall e s ≠ .next t :=
  fun h => by cases e; exact nomatch (running_next h).2

/-- A step that completes had no call waiting, or ran the instruction of the oldest one. -/
theorem step_next {s t : State} (h : step s = .next t) :
    (s.env.calls = [] ∧ t = s) ∨
      ∃ c rest i, s.env.calls = c :: rest ∧ decode s.cfg c = .ok i ∧ exec i (s.beginCall rest) = .next t := by
  cases hc : s.env.calls with
  | nil =>
    rw [step_of_no_call hc] at h
    exact .inl ⟨rfl, (Host.Outcome.next.inj h).symm⟩
  | cons c rest =>
    cases hd : decode s.cfg c with
    | ok i => exact .inr ⟨c, rest, i, rfl, hd, step_of_decode_ok hc hd ▸ h⟩
    | error e => exact absurd (step_of_decode_error hc hd ▸ h) refuseCall_ne_next

/-- Settles O6, by the case of the queue: `beginCall` is the state with the call taken off. -/
theorem stepRunsDecodedCall : Obligations.StepRunsDecodedCall :=
  ⟨fun _ _ _ _ hc hd => step_of_decode_ok hc hd, fun _ hc => step_of_no_call hc⟩

/-! ### A decoded call -/

theorem exec_decodeRead (m1 : Bool) (b : BusOperands) (s : State) :
    exec (decodeRead (s.cfg.readTarget b.addr.toNat) m1 b) s = memRead m1 b s := by
  unfold memRead
  cases s.cfg.readTarget b.addr.toNat <;> rfl

theorem exec_decodeWrite (b : BusOperands) (s : State) :
    exec (decodeWrite (s.cfg.writeTarget b.addr.toNat) b) s = memWrite b s := by
  unfold memWrite
  cases s.cfg.writeTarget b.addr.toNat <;> rfl

/-- The decoded row of a pin word is the bus step of that pin word (R82, R100). -/
theorem exec_decodeBus (p : PinWord) (n : Nat) (s : State) : exec (decodeBus s.cfg p n) s = busStep p n s := by
  unfold decodeBus busStep
  dsimp only
  cases classify (Ctl.ofPins p) with
  | memRead => exact exec_decodeRead _ _ s
  | memWrite => exact exec_decodeWrite _ s
  | _ => rfl

/-- The instructions the table of R85 gives the operands of a HOST call. -/
def hostInstrs (o : HostOperands) : List Instr :=
  [.hostReset o.launch, .hostBusStep o.pins o.ticks, .hostTileInfoTx o.index, .hostTileInfoFg o.index,
   .hostTileInfoBg o.index, .hostPalLookup o.index, .hostDraw, .hostRunFrame o.time, .hostInputSet 0 o.value,
   .hostInputSet 1 o.value, .hostInputSet 2 o.value]

theorem decodeHost_mem {h : BitVec 8} {o : HostOperands} {i : Instr} (hd : decodeHost h o = .ok i) :
    i ∈ hostInstrs o := by
  unfold decodeHost at hd
  repeat' split at hd
  all_goals cases hd
  all_goals simp [hostInstrs]

/-! ### The invariant through a step (R9, R165) -/

theorem inv_hostReset {l : Launch} {s t : State} (h : execHostReset l s = .next t) : t.Inv := by
  unfold execHostReset at h
  split at h
  · next hl => cases h; exact inv_initial hl _ _
  · cases h

theorem inv_answerTileInfo {l : TileLayer} {i : Nat} {s t : State} (hi : s.Inv) (h : answerTileInfo l i s = .next t) :
    t.Inv := by
  obtain ⟨-, h⟩ := running_next h
  split at h
  · cases h
  · cases h; exact inv_emit hi _

theorem inv_palLookup {i : Nat} {s t : State} (hi : s.Inv) (h : execHostPalLookup i s = .next t) : t.Inv := by
  obtain ⟨-, h⟩ := running_next h
  split at h
  · cases h
  · cases h; exact inv_emit hi _

theorem inv_inputSet {k : Fin 3} {v : Byte} {s t : State} (hi : s.Inv) (h : execHostInputSet k v s = .next t) :
    t.Inv := by
  obtain ⟨-, h⟩ := running_next h
  cases h
  exact inv_setInput hi _ _

theorem inv_hostDraw {s t : State} (hi : s.Inv) (h : execHostDraw s = .next t) : t.Inv :=
  inv_draw hi (running_next h).2

/-- A frame is bus steps, answers of collaborators, a report and a draw, and each of them keeps the invariant. -/
theorem inv_hostRunFrame {x : Nat} {s t : State} (hi : s.Inv) (h : execHostRunFrame x s = .next t) : t.Inv :=
  runFrame_keeps (P := State.Inv) (fun _ => inv_afterPacing) (fun _ => inv_afterSlice) (fun _ _ _ _ => inv_busStep)
    (fun _ _ hs => inv_emit hs _) (fun _ _ => inv_draw) hi (running_next h).2

/-- Every instruction of a HOST call keeps the invariant. -/
theorem inv_exec_hostInstrs {o : HostOperands} {i : Instr} {s t : State} (hi : s.Inv) (hm : i ∈ hostInstrs o)
    (h : exec i s = .next t) : t.Inv := by
  simp only [hostInstrs, List.mem_cons, List.not_mem_nil, or_false] at hm
  rcases hm with rfl | rfl | rfl | rfl | rfl | rfl | rfl | rfl | rfl | rfl | rfl
  · exact inv_hostReset h
  · exact inv_busStep hi h
  · exact inv_answerTileInfo hi h
  · exact inv_answerTileInfo hi h
  · exact inv_answerTileInfo hi h
  · exact inv_palLookup hi h
  · exact inv_hostDraw hi h
  · exact inv_hostRunFrame hi h
  · exact inv_inputSet hi h
  · exact inv_inputSet hi h
  · exact inv_inputSet hi h

/-- Every call keeps the invariant: a pin word as its bus step, a HOST call as one of R85's instructions. -/
theorem inv_exec_decoded {c : Call} {i : Instr} {s t : State} (hi : s.Inv) (hd : decode s.cfg c = .ok i)
    (h : exec i s = .next t) : t.Inv := by
  cases c with
  | bus p n =>
    cases hd
    rw [exec_decodeBus] at h
    exact inv_busStep hi h
  | host sel o => exact inv_exec_hostInstrs hi (decodeHost_mem hd) h

/-- Settles O53, by the case of the queue: taking the call off touches no part the invariant reads, and the call's
instruction keeps it. -/
theorem stepKeepsLegality : Obligations.StepKeepsLegality := by
  intro s t hi h
  rcases step_next h with ⟨-, rfl⟩ | ⟨c, rest, i, -, hd, h⟩
  · exact hi
  · have hb : (s.beginCall rest).Inv := inv_env hi _ []
    exact inv_exec_decoded hb hd h

/-! ### The check of a launch in the words of R9 -/

theorem imageOk_iff (i : Image) : imageOk i = true ↔ IsImage i := by
  simp only [imageOk, IsImage, Memory.within, Bool.and_eq_true, List.all_eq_true, decide_eq_true_eq]

theorem imageGiven_iff (size : Nat) (o : Option Image) :
    imageGiven size o = true ↔ ∃ i, o = some i ∧ i.size = size ∧ IsImage i := by
  cases o with
  | none => simp [imageGiven]
  | some i => simp [imageGiven, imageOk_iff]

theorem tileImageGiven_iff (o : Option Image) : tileImageGiven o = true ↔ ∃ i, o = some i ∧ IsImage i := by
  cases o with
  | none => simp [tileImageGiven]
  | some i => simp [tileImageGiven, imageOk_iff]

theorem inSpace_iff (cfg : Config) (r : Region) : inSpace cfg r = true ↔ r.start + r.size ≤ 2 ^ cfg.addrBits := by
  simp only [inSpace, decide_eq_true_eq]

theorem storeRegions_eq_storeRegionList (cfg : Config) : storeRegions cfg = storeRegionList cfg := by
  simp [storeRegions, visibleRoms, storeRegionList, FixedRom.region?, List.filterMap_eq_flatMap_toList]

theorem mem_storeRegions (cfg : Config) (r : Region) : r ∈ storeRegions cfg ↔ IsStoreRegion cfg r := by
  have tiles : (∃ l, r = cfg.tileRam.get l) ↔ r = cfg.tileRam.tx ∨ r = cfg.tileRam.fg ∨ r = cfg.tileRam.bg := by
    constructor
    · rintro ⟨l, rfl⟩; cases l <;> simp [PerTile.get]
    · rintro (rfl | rfl | rfl)
      exacts [⟨.tx, rfl⟩, ⟨.fg, rfl⟩, ⟨.bg, rfl⟩]
  simp only [storeRegions, visibleRoms, FixedRom.region?, IsStoreRegion, tiles, List.mem_append, Option.mem_toList,
    List.mem_cons, List.not_mem_nil, or_false, or_assoc]

theorem isRegisterRegion_iff (cfg : Config) (r : Region) :
    IsRegisterRegion cfg r ↔ r ∈ registerRegions cfg ∨ ∃ a src, cfg.inputPort a = some src ∧ r = ⟨a, 1⟩ := by
  have scrolls : (∃ l, r = ⟨cfg.scrollWin.get l, 3⟩) ↔ r = cfg.scrollRegion .fg ∨ r = cfg.scrollRegion .bg := by
    constructor
    · rintro ⟨l, rfl⟩; cases l <;> simp [Config.scrollRegion]
    · rintro (rfl | rfl)
      exacts [⟨.fg, rfl⟩, ⟨.bg, rfl⟩]
  simp only [IsRegisterRegion, registerRegions, scrolls, List.mem_cons, List.not_mem_nil, or_false, or_assoc]

/-- R9 (a) of every region is the check of the stores, of the register windows and of the input ports. -/
theorem regionsInSpace_iff (cfg : Config) :
    (∀ r, IsStoreRegion cfg r ∨ IsRegisterRegion cfg r → r.start + r.size ≤ 2 ^ cfg.addrBits) ↔
      (storeRegions cfg).all (inSpace cfg) = true ∧ (registerRegions cfg).all (inSpace cfg) = true ∧
        ∀ a src, cfg.inputPort a = some src → inSpace cfg ⟨a, 1⟩ = true := by
  simp only [isRegisterRegion_iff, ← mem_storeRegions, List.all_eq_true, inSpace_iff]
  constructor
  · intro h
    exact ⟨fun r hr => h r (.inl hr), fun r hr => h r (.inr (.inl hr)),
      fun a src ha => h ⟨a, 1⟩ (.inr (.inr ⟨a, src, ha, rfl⟩))⟩
  · rintro ⟨hs, hr, hp⟩ r (h | h | ⟨a, src, ha, rfl⟩)
    exacts [hs r h, hr r h, hp a src ha]

/-- R9 (h) is the check of the register windows and of the input ports. -/
theorem registersApart_iff (cfg : Config) :
    (∀ r q, IsRegisterRegion cfg r → IsStoreRegion cfg q → Apart r q) ↔
      (registerRegions cfg).all (fun r => (storeRegions cfg).all (regionsDisjoint r)) = true ∧
        ∀ a src, cfg.inputPort a = some src → (storeRegions cfg).all (regionsDisjoint ⟨a, 1⟩) = true := by
  simp only [isRegisterRegion_iff, ← mem_storeRegions, List.all_eq_true, regionsDisjoint_iff]
  constructor
  · intro h
    exact ⟨fun r hr q hq => h r q (.inl hr) hq, fun a src ha q hq => h ⟨a, 1⟩ q (.inr ⟨a, src, ha, rfl⟩) hq⟩
  · rintro ⟨hr, hp⟩ r q (h | ⟨a, src, ha, rfl⟩) hq
    exacts [hr r h q hq, hp a src ha q hq]

/-- R9 (b) is the pairwise check of the store regions. -/
theorem storesApart_iff (cfg : Config) :
    (storeRegionList cfg).Pairwise Apart ↔ pairwiseDisjoint (storeRegions cfg) = true := by
  simp only [pairwiseDisjoint_iff, storeRegions_eq_storeRegionList, regionsDisjoint_iff]
  rfl

theorem distinct_iff (p : PerLayer Nat) : p.distinct = true ↔ [p.bg, p.fg, p.tx, p.spr].Nodup := by
  simp only [PerLayer.distinct, decide_eq_true_eq]

/-- The check of a launch says what R9 and R271 say in words. -/
theorem launchOk_iff_launchInWords (l : Launch) : launchOk l = true ↔ LaunchInWords l := by
  rw [launchOk_iff]
  constructor
  · rintro ⟨hcfg, h0, h1, h2, hb, ht, hs⟩
    have c := (configOk_iff l.cfg).mp hcfg
    have hports := (portsOk_iff l.cfg).mp c.ports
    exact {
      inSpace := (regionsInSpace_iff _).mpr
        ⟨c.storesInSpace, c.registersInSpace, fun a src ha => (hports a src ha).1⟩
      storesApart := (storesApart_iff _).mpr c.storesDisjoint
      tileEven := c.tileEven
      paletteSize := c.paletteSize
      tilesSuffice := c.tilesSuffice
      ticks := c.ticks
      shift := c.shift
      registersApart := (registersApart_iff _).mpr ⟨c.registersDisjoint, fun a src ha => (hports a src ha).2⟩
      bases := (distinct_iff _).mp c.bases
      rows := c.rows
      columns := c.columns
      scrollOffsets := ⟨c.scrollLo, c.scrollHi⟩
      fixed0 := (imageGiven_iff _ _).mp h0
      fixed1 := (imageGiven_iff _ _).mp h1
      fixed2 := (imageGiven_iff _ _).mp h2
      bank := (imageGiven_iff _ _).mp hb
      tileRoms := fun k => (tileImageGiven_iff _).mp (ht k)
      spriteGraphics := (imageOk_iff _).mp hs }
  · intro w
    obtain ⟨hstores, hregs, hports⟩ := (regionsInSpace_iff _).mp w.inSpace
    obtain ⟨hapart, hportsApart⟩ := (registersApart_iff _).mp w.registersApart
    have c : ConfigParts l.cfg := {
      storesInSpace := hstores
      registersInSpace := hregs
      storesDisjoint := (storesApart_iff _).mp w.storesApart
      tileEven := w.tileEven
      paletteSize := w.paletteSize
      tilesSuffice := w.tilesSuffice
      ticks := w.ticks
      shift := w.shift
      registersDisjoint := hapart
      ports := (portsOk_iff _).mpr fun a src ha => ⟨hports a src ha, hportsApart a src ha⟩
      bases := (distinct_iff _).mpr w.bases
      rows := w.rows
      columns := w.columns
      scrollLo := w.scrollOffsets.1
      scrollHi := w.scrollOffsets.2 }
    exact {
      cfgOk := (configOk_iff _).mpr c
      fixed0 := (imageGiven_iff _ _).mpr w.fixed0
      fixed1 := (imageGiven_iff _ _).mpr w.fixed1
      fixed2 := (imageGiven_iff _ _).mpr w.fixed2
      bank := (imageGiven_iff _ _).mpr w.bank
      tiles := fun k => (tileImageGiven_iff _).mpr (w.tileRoms k)
      sprites := (imageOk_iff _).mpr w.spriteGraphics }

theorem execHostReset_of_ok {l : Launch} (h : launchOk l = true) (s : State) :
    execHostReset l s = .next (State.initial l s.env s.outbox) := by
  simp only [execHostReset, h, if_true]

theorem execHostReset_of_not_ok {l : Launch} (h : ¬ launchOk l = true) (s : State) :
    execHostReset l s = .refused .launchRefused := by
  simp only [execHostReset, h, if_false, Bool.false_eq_true]

/-- Settles O9: HOST.RESET runs the check `launchOk`, which is R9 and R271 in words. -/
theorem incompleteLaunchIsRefused : Obligations.IncompleteLaunchIsRefused := by
  intro l s
  rw [← launchOk_iff_launchInWords]
  exact ⟨fun h => execHostReset_of_not_ok h s, fun h => ⟨_, execHostReset_of_ok h s⟩⟩

end Sys2Proof.Proofs
end

section
/-! PROOF. The state of the block (spec/10_state.md): what each instruction can do to it, said once, and from that who
writes the ROMs, the inputs, the bank index and the scroll windows, what stays current, and what a fault stops
(O34, O54, O55, O56, O57, O58, O59, O7). -/

namespace Sys2Proof.Proofs

open Sys2Proof.Machine Sys2Proof.Spec

/-! ### What bus writes, INPUT_SET and initialisation alone change -/

/-- The memories and registers of `s` are held in `t`. -/
structure Held (s t : State) : Prop where
  cfg : t.cfg = s.cfg
  rom : t.rom = s.rom
  gfx : t.gfx = s.gfx
  gfxSpr : t.gfxSpr = s.gfxSpr
  paletteRam : t.paletteRam = s.paletteRam
  palette : t.palette = s.palette
  bankIndex : t.bankIndex = s.bankIndex
  scroll : t.scroll = s.scroll
  scrollX : t.scrollX = s.scrollX
  inputs : t.inputs = s.inputs

theorem held_advance (s : State) (n : Nat) : Held s (s.advance n) := by constructor <;> rfl

theorem held_busReturn (s : State) (c : Ctl) (b : BusOperands) (d : Byte) : Held s (s.busReturn c b d) := by
  constructor <;> rfl

theorem held_emit (s : State) (o : Output) : Held s (s.emit o) := by constructor <;> rfl

theorem held_beginCall (s : State) (rest : List Call) : Held s (s.beginCall rest) := by constructor <;> rfl

theorem held_afterPacing (s : State) : Held s s.afterPacing := by constructor <;> simp

theorem held_afterSlice (s : State) : Held s s.afterSlice := by constructor <;> simp

theorem held_drawn (s : State) : Held s s.compose.resolved := by constructor <;> simp [State.resolved]

/-! ### The operation of an instruction -/

/-- The rows of format BUS (R80). -/
def isBusRow : Instr → Bool
  | .hostReset _ => false
  | .hostBusStep _ _ => false
  | .hostTileInfoTx _ => false
  | .hostTileInfoFg _ => false
  | .hostTileInfoBg _ => false
  | .hostPalLookup _ => false
  | .hostDraw => false
  | .hostRunFrame _ => false
  | .hostInputSet _ _ => false
  | _ => true

theorem isBusRow_decodeBus (cfg : Config) (p : PinWord) (n : Nat) : isBusRow (decodeBus cfg p n) = true := by
  unfold decodeBus
  dsimp only
  cases classify (Ctl.ofPins p) with
  | memRead =>
    dsimp only
    cases cfg.readTarget (BusOperands.ofPins p n).addr.toNat <;> rfl
  | memWrite =>
    dsimp only
    cases cfg.writeTarget (BusOperands.ofPins p n).addr.toNat <;> rfl
  | _ => rfl

/-- The operation a row does to the state between its timing advance and its returned pins (R104 to R119). -/
def rowOp (cfg : Config) : Instr → BusOp
  | .inta _ _ _ => .ack
  | .memWrWorkram b => .work (busAddr b - cfg.workRam.start)
  | .memWrTxram b => .tile .tx (busAddr b - cfg.tileRam.tx.start)
  | .memWrFgram b => .tile .fg (busAddr b - cfg.tileRam.fg.start)
  | .memWrBgram b => .tile .bg (busAddr b - cfg.tileRam.bg.start)
  | .memWrSprram b => .sprite (busAddr b - cfg.spriteRam.start)
  | .memWrPalram b => .palette (busAddr b - cfg.paletteRam.start)
  | .memWrScrollfg b => .scroll .fg (busAddr b - cfg.scrollWin.fg)
  | .memWrScrollbg b => .scroll .bg (busAddr b - cfg.scrollWin.bg)
  | .memWrBanksel _ => .bank
  | _ => .nothing

/-- A row that completes does its operation and nothing else. -/
theorem exec_row {i : Instr} {s t : State} (hrow : isBusRow i = true) (h : exec i s = .next t) :
    ∃ c b d, Effect c b (rowOp s.cfg i) d s t := by
  cases i with
  | illegalRdwr => exact (illegalCycle_not_next h).elim
  | illegalMemio => exact (illegalCycle_not_next h).elim
  | illegalM1wr => exact (illegalCycle_not_next h).elim
  | memRdBankwin m1 b =>
    dsimp only [exec] at h
    obtain ⟨-, h⟩ := running_next h
    split at h
    · exact ⟨_, _, _, effect_of_busCycle .nothing h rfl⟩
    · cases h
  | hostReset => cases hrow
  | hostBusStep => cases hrow
  | hostTileInfoTx => cases hrow
  | hostTileInfoFg => cases hrow
  | hostTileInfoBg => cases hrow
  | hostPalLookup => cases hrow
  | hostDraw => cases hrow
  | hostRunFrame => cases hrow
  | hostInputSet => cases hrow
  | _ =>
    dsimp only [exec] at h
    exact ⟨_, _, _, effect_of_busCycle _ h rfl⟩

/-- The operation of an instruction: a bus step does that of the row its pin word decodes to (R100). -/
def opOf (cfg : Config) : Instr → BusOp
  | .hostBusStep p n => rowOp cfg (decodeBus cfg p n)
  | i => rowOp cfg i

theorem opOf_of_ne_busStep {i : Instr} (cfg : Config) (h : ∀ p n, i ≠ .hostBusStep p n) :
    opOf cfg i = rowOp cfg i := by
  cases i with
  | hostBusStep p n => exact absurd rfl (h p n)
  | _ => rfl

theorem rowOp_eq_bank {cfg : Config} {i : Instr} (h : rowOp cfg i = .bank) : ∃ b, i = .memWrBanksel b := by
  cases i with
  | memWrBanksel b => exact ⟨b, rfl⟩
  | _ => cases h

/-- The row that writes a layer's scroll window. -/
def scrollRow : ScrollLayer → BusOperands → Instr
  | .fg => .memWrScrollfg
  | .bg => .memWrScrollbg

theorem rowOp_eq_scroll {cfg : Config} {i : Instr} {l : ScrollLayer} {k : Nat} (h : rowOp cfg i = .scroll l k) :
    ∃ b, i = scrollRow l b := by
  cases i with
  | memWrScrollfg b => cases h; exact ⟨b, rfl⟩
  | memWrScrollbg b => cases h; exact ⟨b, rfl⟩
  | _ => cases h

/-! ### What an instruction can do -/

theorem answerTileInfo_next {l : TileLayer} {i : Nat} {s t : State} (h : answerTileInfo l i s = .next t) :
    ∃ o, t = s.emit o := by
  obtain ⟨-, h⟩ := running_next h
  split at h
  · cases h
  · exact ⟨_, (Host.Outcome.next.inj h).symm⟩

theorem execHostInputSet_next {k : Fin 3} {v : Byte} {s t : State} (h : execHostInputSet k v s = .next t) :
    t = s.setInput k.val v :=
  (Host.Outcome.next.inj (running_next h).2).symm

theorem execHostPalLookup_next {i : Nat} {s t : State} (h : execHostPalLookup i s = .next t) :
    ∃ o, t = s.emit o := by
  obtain ⟨-, h⟩ := running_next h
  split at h
  · cases h
  · exact ⟨_, (Host.Outcome.next.inj h).symm⟩

/-- Everything an instruction that completes can do, but an initialisation or a whole frame: a bus step with its
operation, a query's answer, an input, a draw. -/
theorem exec_next {i : Instr} {s t : State} (hreset : ∀ l, i ≠ .hostReset l) (hframe : ∀ x, i ≠ .hostRunFrame x)
    (h : exec i s = .next t) :
    (∃ c b d, Effect c b (opOf s.cfg i) d s t) ∨ (∃ o, t = s.emit o) ∨
      (∃ k v, i = .hostInputSet k v ∧ t = s.setInput k.val v) ∨ t = s.compose.resolved := by
  cases i with
  | hostReset l => exact absurd rfl (hreset l)
  | hostRunFrame x => exact absurd rfl (hframe x)
  | hostBusStep p n =>
    have hrow : exec (decodeBus s.cfg p n) s = .next t := (exec_decodeBus p n s).trans h
    exact .inl (exec_row (isBusRow_decodeBus _ _ _) hrow)
  | hostTileInfoTx => exact .inr (.inl (answerTileInfo_next h))
  | hostTileInfoFg => exact .inr (.inl (answerTileInfo_next h))
  | hostTileInfoBg => exact .inr (.inl (answerTileInfo_next h))
  | hostPalLookup => exact .inr (.inl (execHostPalLookup_next h))
  | hostDraw => exact .inr (.inr (.inr (draw_next (running_next h).2)))
  | hostInputSet k v => exact .inr (.inr (.inl ⟨k, v, rfl, execHostInputSet_next h⟩))
  | _ => exact .inl (exec_row rfl h)

/-! ### What an instruction keeps -/

section Keeps

variable {P : State → Prop} (hheld : ∀ s t, Held s t → P s → P t)
include hheld

theorem draw_keeps {s t : State} (hs : P s) (h : draw s = .next t) : P t := by
  rw [draw_next h]
  exact hheld _ _ (held_drawn s) hs

theorem effect_keeps {c : Ctl} {b : BusOperands} {op : BusOp} {d : Byte} {s t : State}
    (hop : ∀ d u, P u → P (op.apply d u)) (hs : P s) (h : Effect c b op d s t) : P t := by
  rw [h.result]
  exact hheld _ _ (held_busReturn _ _ _ _) (hop _ _ (hheld _ _ (held_advance s _) hs))

/-- Outside initialisation and a whole frame, an instruction keeps what its own operation keeps. -/
theorem exec_keeps_of_op {i : Instr} {s t : State} (hop : ∀ d u, P u → P ((opOf s.cfg i).apply d u))
    (hinput : ∀ k v u, i = .hostInputSet k v → P u → P (u.setInput k.val v)) (hreset : ∀ l, i ≠ .hostReset l)
    (hframe : ∀ x, i ≠ .hostRunFrame x) (hs : P s) (h : exec i s = .next t) : P t := by
  rcases exec_next hreset hframe h with ⟨c, b, d, he⟩ | ⟨o, rfl⟩ | ⟨k, v, hi, rfl⟩ | rfl
  · exact effect_keeps hheld hop hs he
  · exact hheld _ _ (held_emit s o) hs
  · exact hinput k v s hi hs
  · exact hheld _ _ (held_drawn s) hs

variable (hop : ∀ (op : BusOp) d u, P u → P (op.apply d u))
include hop

theorem busStep_keeps {p : PinWord} {n : Nat} {s t : State} (hs : P s) (h : busStep p n s = .next t) : P t := by
  obtain ⟨op, d, -, -, -, he⟩ := busStep_effect h
  exact effect_keeps hheld (hop op) hs he

/-- Outside initialisation an instruction, a whole frame included, keeps what every operation keeps. -/
theorem exec_keeps {i : Instr} {s t : State}
    (hinput : ∀ k v u, i = .hostInputSet k v → P u → P (u.setInput k.val v)) (hreset : ∀ l, i ≠ .hostReset l)
    (hs : P s) (h : exec i s = .next t) : P t := by
  by_cases hframe : ∃ x, i = .hostRunFrame x
  · obtain ⟨x, rfl⟩ := hframe
    exact runFrame_keeps (fun u => hheld u _ (held_afterPacing u)) (fun u => hheld u _ (held_afterSlice u))
      (fun _ _ _ _ => busStep_keeps hheld hop) (fun u _ => hheld u _ (held_emit u _)) (fun _ _ => draw_keeps hheld) hs
      (running_next h).2
  · exact exec_keeps_of_op hheld (hop _) hinput hreset (not_exists.mp hframe) hs h

/-- A step that is no initialisation keeps what every operation and every input keeps. -/
theorem step_keeps {s t : State} (hinput : ∀ k v u, P u → P (u.setInput k v))
    (hreset : ∀ c rest l, s.env.calls = c :: rest → decode s.cfg c ≠ .ok (.hostReset l)) (hs : P s)
    (h : step s = .next t) : P t := by
  rcases step_next h with ⟨-, rfl⟩ | ⟨c, rest, i, hc, hd, h⟩
  · exact hs
  · have hi : ∀ l, i ≠ .hostReset l := fun l hl => hreset c rest l hc (hl ▸ hd)
    exact exec_keeps hheld hop (fun k v u _ => hinput k.val v u) hi (hheld _ _ (held_beginCall s rest) hs) h

end Keeps

/-! ### The counters (R31, R32) -/

theorem vsyncTicks_advance (tpf vb n : Nat) (t : Timing) :
    (t.advance tpf vb n).vsyncTicks =
      if t.vsyncTicks - n ≤ 0 then t.vsyncTicks - n + tpf else t.vsyncTicks - n := by
  split
  · next h => rw [Timing.advance_opens h]
  · next h => rw [Timing.advance_runs (by omega)]

theorem vblankTicks_advance_nonneg {tpf vb n : Nat} {t : Timing} (h : 0 ≤ t.vblankTicks) :
    0 ≤ (t.advance tpf vb n).vblankTicks := by
  by_cases ho : t.vsyncTicks - n ≤ 0
  · rw [Timing.advance_opens ho]
    exact Int.natCast_nonneg vb
  · rw [Timing.advance_runs (by omega)]
    dsimp only
    split <;> omega

/-- No operation moves the counters, the acknowledge neither. -/
theorem apply_counters (op : BusOp) (d : Byte) (s : State) :
    (op.apply d s).timing.vsyncTicks = s.timing.vsyncTicks ∧
      (op.apply d s).timing.vblankTicks = s.timing.vblankTicks := by
  rw [BusOp.apply_timing]
  split <;> exact ⟨rfl, rfl⟩

/-- The counters after a bus step are those of its timing advance. -/
theorem busStep_counters {p : PinWord} {n : Nat} {s t : State} (h : busStep p n s = .next t) :
    t.cfg = s.cfg ∧
      t.timing.vsyncTicks = (s.timing.advance s.cfg.tpf s.cfg.vblankTicks n).vsyncTicks ∧
      t.timing.vblankTicks = (s.timing.advance s.cfg.tpf s.cfg.vblankTicks n).vblankTicks := by
  obtain ⟨op, d, -, -, -, -, rfl⟩ := busStep_effect h
  exact ⟨BusOp.apply_cfg op _ _, apply_counters op _ _⟩

/-- Settles O34: an advance by `n` re-adds `TPF` once, and only when it has taken `vsync_ticks` to 0 or below. -/
theorem timingCountersKeepBounds : Obligations.TimingCountersKeepBounds := by
  intro p n s t h
  obtain ⟨hcfg, hsync, hblank⟩ := busStep_counters h
  rw [vsyncTicks_advance] at hsync
  rw [hcfg, hsync, hblank]
  refine ⟨fun hv => ?_, fun hn h1 hv => ?_, vblankTicks_advance_nonneg⟩
  · split <;> omega
  · split <;> omega

/-! ### A recorded fault (R38) -/

theorem afterFault_of_fault {s : State} {f : Fault} (hf : s.fault = some f) : s.afterFault f = s := by
  cases s
  cases hf
  rfl

theorem exec_afterFault_of_ne_busStep {i : Instr} (s : State) (f : Fault) (hreset : ∀ l, i ≠ .hostReset l)
    (hbus : ∀ p n, i ≠ .hostBusStep p n) : exec i (s.afterFault f) = .fault f := by
  cases i with
  | hostReset l => exact absurd rfl (hreset l)
  | hostBusStep p n => exact absurd rfl (hbus p n)
  | _ => rfl

/-- The faulted state takes no instruction but HOST.RESET; a bus step is the row of its pin word. -/
theorem exec_afterFault {i : Instr} (s : State) (f : Fault) (hreset : ∀ l, i ≠ .hostReset l) :
    exec i (s.afterFault f) = .fault f := by
  by_cases hbus : ∃ p n, i = .hostBusStep p n
  · obtain ⟨p, n, rfl⟩ := hbus
    have hrow := isBusRow_decodeBus s.cfg p n
    exact (exec_decodeBus p n _).symm.trans
      (exec_afterFault_of_ne_busStep s f (fun _ hl => nomatch hl ▸ hrow) fun _ _ hq => nomatch hq ▸ hrow)
  · exact exec_afterFault_of_ne_busStep s f hreset fun p n hi => hbus ⟨p, n, hi⟩

theorem exec_of_fault {i : Instr} {s : State} {f : Fault} (hf : s.fault = some f) (hreset : ∀ l, i ≠ .hostReset l) :
    exec i s = .fault f := by
  rw [← afterFault_of_fault hf]
  exact exec_afterFault s f hreset

theorem refuseCall_of_fault {s : State} {f : Fault} (hf : s.fault = some f) (e : DecodeError) :
    refuseCall e s = .fault f :=
  running_of_some hf _

theorem step_of_fault {s : State} {f : Fault} {c : Call} {rest : List Call} (hf : s.fault = some f)
    (hc : s.env.calls = c :: rest) (hreset : ∀ l, decode s.cfg c ≠ .ok (.hostReset l)) : step s = .fault f := by
  cases hd : decode s.cfg c with
  | ok i =>
    rw [step_of_decode_ok hc hd]
    exact exec_of_fault hf fun l hl => hreset l (hl ▸ hd)
  | error e =>
    rw [step_of_decode_error hc hd]
    exact refuseCall_of_fault hf e

/-- Settles O54: every meaning but that of HOST.RESET asks for a recorded fault first. -/
theorem faultedStateTakesNoStep : Obligations.FaultedStateTakesNoStep := fun s _ hf =>
  ⟨fun _ hi => exec_of_fault hf hi, fun _ _ hc hd => step_of_fault hf hc hd,
   fun _ hl => ⟨_, execHostReset_of_ok hl s, rfl⟩⟩

/-! ### Who writes what (R23, R24, R27 to R30) -/

/-- Settles O55: the ROMs, decoded stores and configuration are no operation's target. -/
theorem romsAreNeverWritten : Obligations.RomsAreNeverWritten := by
  intro i s t hreset h
  refine exec_keeps (P := fun u => u.rom = s.rom ∧ u.gfx = s.gfx ∧ u.gfxSpr = s.gfxSpr ∧ u.cfg = s.cfg)
    (fun u v hh hu => ?_) (fun op d u hu => ?_) (fun k v u _ hu => hu) hreset ⟨rfl, rfl, rfl, rfl⟩ h
  · rwa [hh.rom, hh.gfx, hh.gfxSpr, hh.cfg]
  · simpa using hu

/-- Settles O56: no bus operation writes an input register. -/
theorem onlyInputSetWritesInputs : Obligations.OnlyInputSetWritesInputs := by
  intro i s t hreset hset h
  exact exec_keeps (P := fun u => u.inputs = s.inputs) (fun _ _ hh hu => hh.inputs.trans hu)
    (fun op d u hu => (BusOp.apply_inputs op d u).trans hu) (fun k v _ hi => absurd hi (hset k v)) hreset rfl h

theorem exec_bankIndex {i : Instr} {s t : State} (hreset : ∀ l, i ≠ .hostReset l)
    (hframe : ∀ x, i ≠ .hostRunFrame x) (h : exec i s = .next t) (hop : opOf s.cfg i ≠ .bank) :
    t.bankIndex = s.bankIndex :=
  exec_keeps_of_op (P := fun u => u.bankIndex = s.bankIndex) (fun _ _ hh hu => hh.bankIndex.trans hu)
    (fun d u hu => (BusOp.apply_bankIndex _ d u hop).trans hu) (fun _ _ _ _ hu => hu) hreset hframe rfl h

theorem exec_scroll {i : Instr} {s t : State} {l : ScrollLayer} (hreset : ∀ l, i ≠ .hostReset l)
    (hframe : ∀ x, i ≠ .hostRunFrame x) (h : exec i s = .next t) (hop : ∀ k, opOf s.cfg i ≠ .scroll l k) :
    t.scroll.get l = s.scroll.get l ∧ t.scrollX.get l = s.scrollX.get l := by
  refine exec_keeps_of_op (P := fun u => u.scroll.get l = s.scroll.get l ∧ u.scrollX.get l = s.scrollX.get l)
    (fun u v hh hu => ?_) (fun d u hu => ?_) (fun _ _ _ _ hu => hu) hreset hframe ⟨rfl, rfl⟩ h
  · rwa [hh.scroll, hh.scrollX]
  · obtain ⟨h1, h2⟩ := BusOp.apply_scroll _ d u l hop
    rwa [h1, h2]

/-- Settles O57: the row decides the operation, and the bank index and each window are the target of one operation. -/
theorem bankAndScrollHaveOneWriter : Obligations.BankAndScrollHaveOneWriter := by
  intro i j s t hreset hframe h hij hj
  have hop : opOf s.cfg i = rowOp s.cfg j := by
    rcases hij with rfl | ⟨p, n, rfl, rfl⟩
    · exact opOf_of_ne_busStep _ hj
    · rfl
  have hscroll : ∀ l, (∀ b, j ≠ scrollRow l b) →
      t.scroll.get l = s.scroll.get l ∧ t.scrollX.get l = s.scrollX.get l := by
    intro l hl
    refine exec_scroll hreset hframe h fun k hk => ?_
    obtain ⟨b, hb⟩ := rowOp_eq_scroll (hop ▸ hk)
    exact hl b hb
  refine ⟨fun hbank => exec_bankIndex hreset hframe h fun hb => ?_, hscroll .fg, hscroll .bg⟩
  obtain ⟨b, hb⟩ := rowOp_eq_bank (hop ▸ hb)
  exact hbank b hb

/-! ### What stays current (R26, R29) -/

/-- R26 with what it rests on: palette RAM is canonical and the table has all its entries. -/
structure PaletteSound (i : Nat) (s : State) : Prop where
  canonical : (s.store .palette).wf = true
  length : s.palette.length = paletteEntries
  current : PaletteCurrent s i

theorem paletteSound_congr {s t : State} {i : Nat} (hr : t.store .palette = s.store .palette)
    (hp : t.palette = s.palette) (h : PaletteSound i s) : PaletteSound i t := by
  obtain ⟨hw, hl, hc⟩ := h
  refine ⟨hr ▸ hw, hp ▸ hl, ?_⟩
  unfold PaletteCurrent entry State.byteAt at hc ⊢
  rwa [hr, hp]

/-- R141: a written byte goes into the channels of its slot's entry that expand it, and no other entry changes. -/
theorem paletteSound_writePalette {s : State} {i : Nat} (hi : i < paletteEntries) (off : Nat) (d : Byte)
    (h : PaletteSound i s) : PaletteSound i (s.writePalette off d) := by
  obtain ⟨hw, hl, hr, hg, hb, ha⟩ := h
  have hbyte := byteAt_of_write hw (store_writePalette s off d) .palette
  refine ⟨?_, by simpa using hl, ?_⟩
  · rw [store_writePalette, if_pos rfl]
    exact Memory.wf_write _ _ hw
  by_cases hslot : off / 2 = i
  · have hentry : entry (s.writePalette off d) i = recolour off d (entry s i) := by
      have := colourAt_paletteUpdate s.palette off d i (by omega)
      rwa [if_pos hslot.symm] at this
    unfold PaletteCurrent
    rw [hbyte, hbyte, hentry]
    by_cases hodd : off % 2 = 1
    · have h1 : 2 * i + 1 = off := by omega
      have h0 : 2 * i ≠ off := by omega
      simp [recolour, hodd, h1, h0, dupHi_toNat, dupLo_toNat, hb]
    · have h0 : 2 * i = off := by omega
      simp [recolour, hodd, h0, dupLo_toNat, hr, hg]
  · have hentry : entry (s.writePalette off d) i = entry s i := by
      simp [entry, colourAt, paletteUpdate, List.getElem?_set_ne hslot]
    have h1 : 2 * i + 1 ≠ off := by omega
    have h0 : 2 * i ≠ off := by omega
    unfold PaletteCurrent
    rw [hbyte, hbyte, hentry]
    simp [h1, h0, hr, hg, hb, ha]

theorem paletteSound_apply {s : State} {i : Nat} (hi : i < paletteEntries) (op : BusOp) (d : Byte)
    (h : PaletteSound i s) : PaletteSound i (op.apply d s) := by
  cases op with
  | palette off => exact paletteSound_writePalette hi off d h
  | _ => exact paletteSound_congr (s := s) rfl rfl h

/-- Settles O58: palette RAM and the table are written by one operation, which keeps them in step. -/
theorem paletteStaysCurrent : Obligations.PaletteStaysCurrent := by
  intro s t i hinv hi h hreset hc
  exact (step_keeps (P := PaletteSound i) (fun u v hh => paletteSound_congr hh.paletteRam hh.palette)
    (fun op d _ => paletteSound_apply hi op d) (fun _ _ _ => paletteSound_congr rfl rfl) hreset
    ⟨hinv.canonical .palette, hinv.paletteLength, hc⟩ h).current

theorem scrollCurrent_iff (s : State) (l : ScrollLayer) :
    ScrollCurrent s l ↔ s.scrollX.get l = scrollValue s.cfg (s.scroll.get l) := by
  simp [ScrollCurrent, scrollValue]

theorem scrollCurrent_congr {s t : State} {l : ScrollLayer} (hc : t.cfg = s.cfg)
    (hw : t.scroll.get l = s.scroll.get l) (hx : t.scrollX.get l = s.scrollX.get l) (h : ScrollCurrent s l) :
    ScrollCurrent t l := by
  unfold ScrollCurrent at h ⊢
  rwa [hc, hw, hx]

/-- R111, R119: a write of a window sends the offset its bytes then have. -/
theorem scrollCurrent_writeScroll (s : State) (l : ScrollLayer) (k : Nat) (d : Byte) :
    ScrollCurrent (s.writeScroll l k d) l := by
  simp [scrollCurrent_iff]

theorem scrollCurrent_apply {s : State} {l : ScrollLayer} (op : BusOp) (d : Byte) (h : ScrollCurrent s l) :
    ScrollCurrent (op.apply d s) l := by
  by_cases hop : ∃ k, op = .scroll l k
  · obtain ⟨k, rfl⟩ := hop
    exact scrollCurrent_writeScroll s l k d
  · obtain ⟨hw, hx⟩ := BusOp.apply_scroll op d s l (not_exists.mp hop)
    exact scrollCurrent_congr (BusOp.apply_cfg op d s) hw hx h

/-- Settles O59: a window and its offset are written together or not at all. -/
theorem scrollStaysCurrent : Obligations.ScrollStaysCurrent := by
  intro s t l h hreset hc
  exact step_keeps (P := fun u => ScrollCurrent u l)
    (fun u v hh => scrollCurrent_congr hh.cfg (by rw [hh.scroll]) (by rw [hh.scrollX]))
    (fun op d _ => scrollCurrent_apply op d) (fun _ _ _ => scrollCurrent_congr rfl rfl rfl) hreset hc h

/-! ### A placed word -/

theorem withFetchWord_of_some {nbits w : Nat} {c : Call} (h : tableCall nbits w = some c) (s : State) :
    s.withFetchWord nbits w = s.withCall c := by
  simp only [State.withFetchWord, h]

/-- Settles O7: the placed call stands first in the queue, and beginning it leaves the queue there was. -/
theorem placedWordIsRunNext : Obligations.PlacedWordIsRunNext := by
  intro s nbits w c i hc hd
  rw [withFetchWord_of_some hc]
  exact step_of_decode_ok rfl hd

end Sys2Proof.Proofs
end

section
/-! PROOF. The memory map (spec/20_memory.md): which decode target an address reaches, what a read and a write over the
bus do from a state with no fault, and from that read after write (O35) and the addresses outside every range (O37). -/

namespace Sys2Proof.Proofs

open Sys2Proof.Machine Sys2Proof.Spec

/-! ### Which target an address reaches (R101, R102) -/

/-- The six RAM regions, in the order of R51. -/
def ramRegions (cfg : Config) : List Region :=
  [cfg.workRam, cfg.tileRam.tx, cfg.tileRam.fg, cfg.tileRam.bg, cfg.spriteRam, cfg.paletteRam]

theorem storeRegions_eq_append (cfg : Config) : storeRegions cfg = visibleRoms cfg ++ ramRegions cfg := rfl

theorem fixedRom_contains_iff (r : FixedRom) (a : Nat) :
    r.contains a = true ↔ ∃ g, r.region? = some g ∧ g.contains a = true := by
  unfold FixedRom.contains
  cases r.region? <;> simp

/-- An address lies in a visible ROM exactly when one of the three fixed ROMs contains it. -/
theorem exists_visibleRom_iff (cfg : Config) (a : Nat) :
    (∃ g ∈ visibleRoms cfg, g.contains a = true) ↔
      cfg.rom0.contains a = true ∨ cfg.rom1.contains a = true ∨ cfg.rom2.contains a = true := by
  simp only [visibleRoms, List.mem_append, Option.mem_toList, fixedRom_contains_iff, or_and_right, exists_or]

/-- R9 (b): an address with a store is one of a store region. -/
theorem isGeneric_iff (cfg : Config) (a : Nat) :
    cfg.isGeneric a = true ↔ ∃ g ∈ storeRegions cfg, g.contains a = true := by
  simp only [storeRegions_eq_append, List.mem_append, or_and_right, exists_or, exists_visibleRom_iff]
  simp [ramRegions, Config.isGeneric, or_assoc]

/-- R101 entry 1: a generic read reaches a store exactly at the addresses of the stores. -/
theorem genericTarget_isSome (cfg : Config) (a : Nat) : (cfg.genericTarget a).isSome = cfg.isGeneric a := by
  unfold Config.genericTarget Config.isGeneric
  repeat' split
  all_goals simp [*]

/-- R9 (b): an address of a RAM region lies in no visible ROM. -/
theorem no_visibleRom_of_ram {cfg : Config} (hc : configOk cfg = true) {q : Region} (hq : q ∈ ramRegions cfg) {a : Nat}
    (hqa : q.contains a = true) : ¬ ∃ g ∈ visibleRoms cfg, g.contains a = true := by
  rintro ⟨g, hg, hga⟩
  have hpair := (pairwiseDisjoint_iff _).mp ((configOk_iff cfg).mp hc).storesDisjoint
  rw [storeRegions_eq_append, List.pairwise_append] at hpair
  obtain ⟨-, -, hcross⟩ := hpair
  exact (regionsDisjoint_iff g q).mp (hcross g hg q hq) a ⟨hga, hqa⟩

/-- R61: outside the ROMs, the byte a write row stores is the byte a generic read of its address returns. -/
theorem target_writeRow (cfg : Config) (b : BusOperands)
    (h : ¬ ∃ g ∈ visibleRoms cfg, g.contains b.addr.toNat = true) :
    (rowOp cfg (decodeWrite (cfg.writeTarget b.addr.toNat) b)).target = cfg.genericTarget b.addr.toNat := by
  rw [exists_visibleRom_iff] at h
  unfold Config.writeTarget Config.genericTarget
  simp only [not_or, Bool.not_eq_true] at h
  obtain ⟨h0, h1, h2⟩ := h
  simp only [h0, h1, h2, Bool.or_self, Bool.false_eq_true, if_false]
  repeat' split
  all_goals rfl

/-- R101: an address with no store, no window and no port is unmapped for reads. -/
theorem readTarget_unmapped {cfg : Config} {a : Nat} (hg : cfg.isGeneric a = false)
    (hw : cfg.bankWindow.contains a = false) (hp : cfg.inputPort a = none) : cfg.readTarget a = .unmapped := by
  simp [Config.readTarget, genericTarget_isSome, hg, hw, hp]

/-- R102: an address with no store and no register is unmapped for writes. -/
theorem writeTarget_unmapped {cfg : Config} {a : Nat} (hg : cfg.isGeneric a = false) (hs : cfg.isScroll a = false)
    (hb : a ≠ cfg.bankselAddr) (hw : cfg.bankWindow.contains a = false) : cfg.writeTarget a = .unmapped := by
  simp only [Config.isGeneric, Config.isScroll, Bool.or_eq_false_iff] at hg hs
  simp [Config.writeTarget, hg, hs, hb, hw]

/-! ### A memory cycle over the bus (R100) -/

/-- The pins of `mrd` and `mwr`, with the tick count of the bus step. -/
def plainPins (a : BitVec 16) (d : Byte) (n : Nat) : BusOperands := ⟨a, d, false, false, false, n⟩

theorem exec_mrd (a : BitVec 16) (n : Nat) (s : State) :
    exec (.hostBusStep (mrd a) n) s = memRead false (plainPins a 0 n) s := by
  show busStep (mrd a) n s = _
  simp only [busStep, mrd, Ctl.ofPins_pack, BusOperands.ofPins_pack]
  rfl

theorem exec_mwr (a : BitVec 16) (d : Byte) (n : Nat) (s : State) :
    exec (.hostBusStep (mwr a d) n) s = memWrite (plainPins a d n) s := by
  show busStep (mwr a d) n s = _
  simp only [busStep, mwr, Ctl.ofPins_pack, BusOperands.ofPins_pack]
  rfl

/-- Every memory write completes when no fault is recorded, with the operation of its row. -/
theorem memWrite_of_none {s : State} (hf : s.fault = none) (b : BusOperands) :
    memWrite b s = .next (((rowOp s.cfg (decodeWrite (s.cfg.writeTarget b.addr.toNat) b)).apply b.data
      (s.advance b.ticks)).busReturn .memWr b b.data) := by
  unfold memWrite
  cases s.cfg.writeTarget b.addr.toNat <;> exact busCycle_of_none hf _ _ _ _

/-- R103: a read of an address with a store returns the byte there. -/
theorem memRead_of_store {s : State} (hf : s.fault = none) (m1 : Bool) {b : BusOperands} {st : Store} {off : Nat}
    (h : s.cfg.genericTarget b.addr.toNat = some (st, off)) :
    memRead m1 b s = .next ((s.advance b.ticks).busReturn (.memRd m1) b (s.byteAt st off)) := by
  have ht : s.cfg.readTarget b.addr.toNat = .generic := by simp [Config.readTarget, h]
  have hd : (s.advance b.ticks).readGeneric (busAddr b) = s.byteAt st off := by
    simp [State.readGeneric, busAddr, h, byteAt_congr (store_advance s b.ticks)]
  simp only [memRead, ht, execMemRdGeneric]
  rw [busCycle_of_none hf, hd]
  rfl

/-- R116: a read of an unmapped address returns 0. -/
theorem memRead_of_unmapped {s : State} (hf : s.fault = none) (m1 : Bool) {b : BusOperands}
    (h : s.cfg.readTarget b.addr.toNat = .unmapped) :
    memRead m1 b s = .next ((s.advance b.ticks).busReturn (.memRd m1) b 0) := by
  simp only [memRead, h]
  exact busCycle_of_none hf _ _ _ _

/-- R113: a write of an unmapped address leaves the state as the timing advance left it. -/
theorem memWrite_of_unmapped {s : State} (hf : s.fault = none) {b : BusOperands}
    (h : s.cfg.writeTarget b.addr.toNat = .unmapped) :
    memWrite b s = .next ((s.advance b.ticks).busReturn .memWr b b.data) := by
  rw [memWrite_of_none hf, h]
  rfl

/-! ### What a cycle returns (R125, R180 to R182) -/

theorem data_pinsBack (c : Ctl) (b : BusOperands) (d : Byte) (t : Timing) : PinWord.data (pinsBack c b d t) = d :=
  data_pack _ _

theorem int_pinsBack (c : Ctl) (b : BusOperands) (d : Byte) (t : Timing) :
    PinWord.int (pinsBack c b d t) = t.intLine :=
  int_pack _ _

/-- R125: every pin but the data lines and INT passes through. -/
theorem getLsbD_pinsBack (c : Ctl) (b : BusOperands) (d : Byte) (t : Timing) {i : Nat} (hd : ¬ (16 ≤ i ∧ i < 24))
    (hi : i ≠ 30) : (pinsBack c b d t).getLsbD i = (pack c b).getLsbD i := by
  simp only [pinsBack, getLsbD_pack, hi, if_false]
  by_cases h : i < 16
  · simp only [h, if_true]
  · simp only [h, show ¬ i < 24 by omega, if_false]

theorem returned_busReturn (c : Ctl) (b : BusOperands) (d : Byte) (u : State) :
    Returned (pack c b) d (u.busReturn c b d) := by
  refine ⟨data_pinsBack c b d _, ?_, fun i _ hd hi => getLsbD_pinsBack c b d _ hd hi⟩
  rw [State.busReturn_pinsOut, int_pinsBack]
  exact Timing.intLine_iff u.timing

theorem advanced_advance (s : State) (n : Nat) : Advanced s.cfg n s.timing (s.advance n).timing := by
  unfold Advanced State.advance
  split
  · next h =>
    rw [Timing.advance_opens h]
    exact ⟨rfl, rfl, rfl⟩
  · next h =>
    rw [Timing.advance_runs (by omega)]
    exact ⟨rfl, rfl, rfl⟩

/-- R100: returning the pins ends a cycle in which the timing advanced and `sent` was handed out. -/
theorem cycle_busReturn (c : Ctl) (b : BusOperands) (d : Byte) {sent : List Output} {s u : State}
    (ht : u.timing = (s.advance b.ticks).timing) (ho : u.outbox = s.outbox ++ sent) :
    Cycle (pack c b) b.ticks d sent s (u.busReturn c b d) := by
  refine ⟨?_, returned_busReturn c b d u, ?_⟩
  · rw [State.busReturn_timing, ht]
    exact advanced_advance s b.ticks
  · rw [State.busReturn_outbox, State.busReturn_pinsOut, ho]

/-- A cycle with no operation is a quiet one. -/
theorem quietCycle_busReturn (c : Ctl) (b : BusOperands) (d : Byte) (s : State) :
    QuietCycle (pack c b) b.ticks d s ((s.advance b.ticks).busReturn c b d) := by
  refine ⟨cycle_busReturn c b d rfl (List.append_nil _).symm, byteAt_congr (by simp), fun part hp => ?_⟩
  cases part with
  | timing => exact absurd (by simp) hp
  | pinsOut => exact absurd (by simp) hp
  | outbox => exact absurd (by simp) hp
  | _ => rfl

/-! ### Read after write (R61) -/

theorem tileRam_mem_ramRegions (cfg : Config) (l : TileLayer) : cfg.tileRam.get l ∈ ramRegions cfg := by
  cases l <;> simp [ramRegions, PerTile.get]

/-- The addresses of read after write are those of the six RAM regions. -/
theorem exists_ramRegion {cfg : Config} {a : Nat}
    (h : cfg.workRam.contains a = true ∨ (∃ l, (cfg.tileRam.get l).contains a = true) ∨
      cfg.spriteRam.contains a = true ∨ cfg.paletteRam.contains a = true) :
    ∃ q ∈ ramRegions cfg, q.contains a = true := by
  rcases h with h | ⟨l, h⟩ | h | h
  · exact ⟨_, by simp [ramRegions], h⟩
  · exact ⟨_, tileRam_mem_ramRegions cfg l, h⟩
  · exact ⟨_, by simp [ramRegions], h⟩
  · exact ⟨_, by simp [ramRegions], h⟩

/-- The byte an operation stores is there after the cycle. -/
theorem byteAt_target {s : State} (hi : s.Inv) {op : BusOp} {st : Store} {off : Nat} (h : op.target = some (st, off))
    (c : Ctl) (b : BusOperands) (d v : Byte) :
    ((op.apply d (s.advance b.ticks)).busReturn c b v).byteAt st off = d := by
  have hw : ((s.advance b.ticks).store st).wf = true := (inv_advance hi b.ticks).canonical st
  rw [byteAt_congr (store_busReturn _ c b v), byteAt_of_write hw (BusOp.apply_store_some op d _ h)]
  simp

/-- A bus write of an address outside the ROMs stores its byte where a generic read of the address looks. -/
theorem exec_mwr_stores {s : State} (hi : s.Inv) (hf : s.fault = none) {a : BitVec 16} {st : Store} {off : Nat}
    (hrom : ¬ ∃ g ∈ visibleRoms s.cfg, g.contains a.toNat = true)
    (hst : s.cfg.genericTarget a.toNat = some (st, off)) (d : Byte) (n : Nat) :
    ∃ t, exec (.hostBusStep (mwr a d) n) s = .next t ∧ t.fault = none ∧ t.cfg = s.cfg ∧ t.byteAt st off = d := by
  have htarget := (target_writeRow s.cfg (plainPins a d n) hrom).trans hst
  exact ⟨_, (exec_mwr a d n s).trans (memWrite_of_none hf _), by simpa using hf, by simp,
    byteAt_target hi htarget _ _ _ _⟩

/-- A bus read of an address with a store puts the byte there on the data lines. -/
theorem exec_mrd_data {s : State} (hf : s.fault = none) {a : BitVec 16} {st : Store} {off : Nat}
    (hst : s.cfg.genericTarget a.toNat = some (st, off)) (n : Nat) :
    ∃ t, exec (.hostBusStep (mrd a) n) s = .next t ∧ PinWord.data t.pinsOut = s.byteAt st off :=
  ⟨_, (exec_mrd a n s).trans (memRead_of_store hf false hst), data_pinsBack _ _ _ _⟩

/-- Settles O35: a RAM address lies in no ROM, so the write and the read of it reach the same byte. -/
theorem busReadAfterWriteReturnsByte : Obligations.BusReadAfterWriteReturnsByte := by
  intro a d n m s ⟨hi, hf⟩ ha
  obtain ⟨q, hq, hqa⟩ := exists_ramRegion ha
  have hrom := no_visibleRom_of_ram hi.cfgOk hq hqa
  have hgen := (isGeneric_iff s.cfg a.toNat).mpr ⟨q, List.mem_append_right _ hq, hqa⟩
  rw [← genericTarget_isSome] at hgen
  obtain ⟨⟨st, off⟩, hst⟩ := Option.isSome_iff_exists.mp hgen
  obtain ⟨t, hwrite, htf, htc, hbyte⟩ := exec_mwr_stores hi hf hrom hst d n
  obtain ⟨u, hread, hdata⟩ := exec_mrd_data htf (htc ▸ hst) m
  exact ⟨t, u, hwrite, hread, hdata.trans hbyte⟩

/-! ### Outside every range (R52) -/

theorem isGeneric_of_outside {cfg : Config} {a : Nat} (h : ∀ r, IsStoreRegion cfg r → r.contains a = false) :
    cfg.isGeneric a = false := by
  rw [← Bool.not_eq_true, isGeneric_iff]
  rintro ⟨g, hg, ha⟩
  exact Bool.false_ne_true ((h g ((mem_storeRegions cfg g).mp hg)).symm.trans ha)

/-- An address in no register region lies in no scroll window, is not BANKSEL, lies outside the bank window and is no
input port. -/
theorem noRegister_of_outside {cfg : Config} {a : Nat} (h : ∀ r, IsRegisterRegion cfg r → r.contains a = false) :
    cfg.isScroll a = false ∧ a ≠ cfg.bankselAddr ∧ cfg.bankWindow.contains a = false ∧ cfg.inputPort a = none := by
  have hself : (⟨a, 1⟩ : Region).contains a = true := by simp [Region.contains]
  refine ⟨?_, fun hb => ?_, h _ (.inr (.inr (.inl rfl))), ?_⟩
  · have hscroll : ∀ l, (cfg.scrollRegion l).contains a = false := fun l => h _ (.inl ⟨l, rfl⟩)
    simp [Config.isScroll, hscroll]
  · have hbank := h _ (.inr (.inl rfl))
    rw [← hb, hself] at hbank
    cases hbank
  · cases hp : cfg.inputPort a with
    | none => rfl
    | some src =>
      have hport := h _ (.inr (.inr (.inr ⟨a, src, hp, rfl⟩)))
      rw [hself] at hport
      cases hport

/-- Settles O37: such an address is unmapped for reads and for writes, and both cycles do no operation. -/
theorem outsideEveryRangeNothingHappens : Obligations.OutsideEveryRangeNothingHappens := by
  intro a d n s hf hstores hregs
  have hgen := isGeneric_of_outside hstores
  obtain ⟨hscroll, hbank, hwin, hport⟩ := noRegister_of_outside hregs
  constructor
  · refine ⟨_, (exec_mrd a n s).trans (memRead_of_unmapped hf false (readTarget_unmapped hgen hwin hport)), ?_⟩
    exact quietCycle_busReturn (.memRd false) (plainPins a 0 n) 0 s
  · refine ⟨_, (exec_mwr a d n s).trans (memWrite_of_unmapped hf (writeTarget_unmapped hgen hscroll hbank hwin)), ?_⟩
    exact quietCycle_busReturn .memWr (plainPins a d n) d s

end Sys2Proof.Proofs
end

section
/-! PROOF. The encoding (spec/30_encoding.md): the row of each cycle kind and its control pins, and from that both round
trips of the decoder and the encoder (O1, O2), the spec's own words (O3), the classification table (O4) and the reserved
selectors (O5). -/

namespace Sys2Proof.Proofs

open Sys2Proof.Machine Sys2Proof.Spec

/-! ### The row of a cycle kind (R82, R83) -/

/-- The control pins of a kind's row of R82, the pins it leaves free taken from `c`. -/
def rowCtl : CycleKind → Ctl → Ctl
  | .illegalRdwr, c => .illegalRdwr c.iorq c.mreq c.m1
  | .illegalMemio, c => .illegalMemio c.wr c.rd c.m1
  | .inta, c => .inta c.wr c.rd
  | .ioRead, _ => .ioRd
  | .ioWrite, _ => .ioWr
  | .ioIdle, _ => .ioIdle
  | .illegalM1wr, _ => .illegalM1wr
  | .memRead, c => .memRd c.m1
  | .memWrite, _ => .memWr
  | .memIdle, c => .memIdle c.m1
  | .noRequest, c => .noRequest c.wr c.rd c.m1

/-- Rows 2, 3 and 11 of R82 leave WR and RD free but for row 1, which stands above them. -/
def belowRowOne : CycleKind → Ctl → Bool
  | .illegalMemio, c => notBoth c.wr c.rd
  | .inta, c => notBoth c.wr c.rd
  | .noRequest, c => notBoth c.wr c.rd
  | _, _ => true

/-- The control pins of a kind are those its row of R82 names and no row above it takes. -/
theorem classify_eq_iff (c : Ctl) (k : CycleKind) : classify c = k ↔ rowCtl k c = c ∧ belowRowOne k c = true := by
  obtain ⟨wr, rd, iorq, mreq, m1⟩ := c
  cases k <;> revert wr rd iorq mreq m1 <;> decide

/-- The instruction of a cycle of kind `k`. -/
def rowInstr (cfg : Config) (k : CycleKind) (c : Ctl) (b : BusOperands) : Instr :=
  match k with
  | .illegalRdwr => .illegalRdwr c.iorq c.mreq c.m1 b
  | .illegalMemio => .illegalMemio c.wr c.rd c.m1 b
  | .inta => .inta c.wr c.rd b
  | .ioRead => .ioRd b
  | .ioWrite => .ioWr b
  | .ioIdle => .ioIdle b
  | .illegalM1wr => .illegalM1wr b
  | .memRead => decodeRead (cfg.readTarget b.addr.toNat) c.m1 b
  | .memWrite => decodeWrite (cfg.writeTarget b.addr.toNat) b
  | .memIdle => .memIdle c.m1 b
  | .noRequest => .noRequest c.wr c.rd c.m1 b

theorem decodeBus_eq_rowInstr (cfg : Config) (p : PinWord) (n : Nat) :
    decodeBus cfg p n = rowInstr cfg (classify (Ctl.ofPins p)) (Ctl.ofPins p) (BusOperands.ofPins p n) := by
  unfold decodeBus
  dsimp only
  cases classify (Ctl.ofPins p) <;> rfl

theorem decode_encodeBus (cfg : Config) (c : Ctl) (b : BusOperands) :
    decode cfg (encodeBus c b) = .ok (rowInstr cfg (classify c) c b) := by
  simp [decode, encodeBus, decodeBus_eq_rowInstr]

theorem encodeBus_ofPins (p : PinWord) (n : Nat) :
    encodeBus (Ctl.ofPins p) (BusOperands.ofPins p n) = .bus p n := by
  rw [encodeBus, pack_ofPins]
  rfl

theorem encode_decodeRead (t : ReadTarget) (m1 : Bool) (b : BusOperands) :
    encode (decodeRead t m1 b) = encodeBus (.memRd m1) b := by
  cases t <;> rfl

theorem encode_decodeWrite (t : WriteTarget) (b : BusOperands) : encode (decodeWrite t b) = encodeBus .memWr b := by
  cases t <;> rfl

theorem encode_rowInstr (cfg : Config) (k : CycleKind) (c : Ctl) (b : BusOperands) :
    encode (rowInstr cfg k c b) = encodeBus (rowCtl k c) b := by
  cases k with
  | memRead => exact encode_decodeRead _ _ _
  | memWrite => exact encode_decodeWrite _ _
  | _ => rfl

/-! ### The address range of a memory row (R101, R102) -/

/-- R101: the range of a read row is the addresses that reach its target, those of every entry above it left out. -/
theorem wf_decodeRead_iff (cfg : Config) (t : ReadTarget) (m1 : Bool) (b : BusOperands) :
    (decodeRead t m1 b).wf cfg = true ↔ cfg.readTarget b.addr.toNat = t := by
  cases t <;> grind [decodeRead, Instr.wf, Config.readTarget, genericTarget_isSome]

/-- R102: the range of a write row is the addresses that reach its target, those of every entry above it left out. -/
theorem wf_decodeWrite_iff (cfg : Config) (t : WriteTarget) (b : BusOperands) :
    (decodeWrite t b).wf cfg = true ↔ cfg.writeTarget b.addr.toNat = t := by
  constructor
  · intro h
    cases t <;> grind [decodeWrite, Instr.wf, Config.writeTarget, Config.isGeneric, Config.isRam, Config.isScroll]
  · rintro rfl
    fun_cases Config.writeTarget <;> grind [decodeWrite, Instr.wf, Config.isGeneric, Config.isRam, Config.isScroll]

/-! ### Round trips (R80, R83, R84) -/

theorem wf_rowInstr (cfg : Config) (k : CycleKind) (c : Ctl) (b : BusOperands) :
    (rowInstr cfg k c b).wf cfg = belowRowOne k c := by
  cases k with
  | memRead => exact (wf_decodeRead_iff cfg _ c.m1 b).mpr rfl
  | memWrite => exact (wf_decodeWrite_iff cfg _ b).mpr rfl
  | _ => rfl

theorem decode_encode_rowInstr {cfg : Config} {k : CycleKind} {c : Ctl} {b : BusOperands} (hc : rowCtl k c = c)
    (hwf : (rowInstr cfg k c b).wf cfg = true) :
    decode cfg (encode (rowInstr cfg k c b)) = .ok (rowInstr cfg k c b) := by
  rw [wf_rowInstr] at hwf
  rw [encode_rowInstr, hc, decode_encodeBus, (classify_eq_iff c k).mpr ⟨hc, hwf⟩]

theorem exists_rowInstr_read {cfg : Config} {t : ReadTarget} {m1 : Bool} {b : BusOperands}
    (h : (decodeRead t m1 b).wf cfg = true) :
    ∃ k c b', rowCtl k c = c ∧ decodeRead t m1 b = rowInstr cfg k c b' :=
  ⟨.memRead, .memRd m1, b, rfl, by rw [← (wf_decodeRead_iff _ _ _ _).mp h]; rfl⟩

theorem exists_rowInstr_write {cfg : Config} {t : WriteTarget} {b : BusOperands}
    (h : (decodeWrite t b).wf cfg = true) : ∃ k c b', rowCtl k c = c ∧ decodeWrite t b = rowInstr cfg k c b' :=
  ⟨.memWrite, .memWr, b, rfl, by rw [← (wf_decodeWrite_iff _ _ _).mp h]; rfl⟩

/-- Every well-formed instruction of format BUS is the row of a cycle kind. -/
theorem exists_rowInstr {cfg : Config} {i : Instr} (hrow : isBusRow i = true) (hwf : i.wf cfg = true) :
    ∃ k c b, rowCtl k c = c ∧ i = rowInstr cfg k c b := by
  cases i with
  | illegalRdwr iorq mreq m1 b => exact ⟨.illegalRdwr, .illegalRdwr iorq mreq m1, b, rfl, rfl⟩
  | illegalMemio wr rd m1 b => exact ⟨.illegalMemio, .illegalMemio wr rd m1, b, rfl, rfl⟩
  | inta wr rd b => exact ⟨.inta, .inta wr rd, b, rfl, rfl⟩
  | ioRd b => exact ⟨.ioRead, .ioRd, b, rfl, rfl⟩
  | ioWr b => exact ⟨.ioWrite, .ioWr, b, rfl, rfl⟩
  | ioIdle b => exact ⟨.ioIdle, .ioIdle, b, rfl, rfl⟩
  | illegalM1wr b => exact ⟨.illegalM1wr, .illegalM1wr, b, rfl, rfl⟩
  | memIdle m1 b => exact ⟨.memIdle, .memIdle m1, b, rfl, rfl⟩
  | noRequest wr rd m1 b => exact ⟨.noRequest, .noRequest wr rd m1, b, rfl, rfl⟩
  | memRdGeneric => exact exists_rowInstr_read (t := .generic) hwf
  | memRdBankwin => exact exists_rowInstr_read (t := .bankwin) hwf
  | memRdInput => exact exists_rowInstr_read (t := .input) hwf
  | memRdUnmapped => exact exists_rowInstr_read (t := .unmapped) hwf
  | memWrWorkram => exact exists_rowInstr_write (t := .workram) hwf
  | memWrTxram => exact exists_rowInstr_write (t := .txram) hwf
  | memWrFgram => exact exists_rowInstr_write (t := .fgram) hwf
  | memWrBgram => exact exists_rowInstr_write (t := .bgram) hwf
  | memWrSprram => exact exists_rowInstr_write (t := .sprram) hwf
  | memWrPalram => exact exists_rowInstr_write (t := .palram) hwf
  | memWrRom => exact exists_rowInstr_write (t := .rom) hwf
  | memWrScrollfg => exact exists_rowInstr_write (t := .scrollfg) hwf
  | memWrScrollbg => exact exists_rowInstr_write (t := .scrollbg) hwf
  | memWrBanksel => exact exists_rowInstr_write (t := .banksel) hwf
  | memWrBankwin => exact exists_rowInstr_write (t := .bankwin) hwf
  | memWrUnmapped => exact exists_rowInstr_write (t := .unmapped) hwf
  | _ => cases hrow

theorem decode_encode_inputSet (cfg : Config) (k : Fin 3) (v : Byte) :
    decode cfg (encode (.hostInputSet k v)) = .ok (.hostInputSet k v) := by
  fin_cases k <;> rfl

/-- R85: a HOST instruction's selector is that of its row, and carries the operands the row reads. -/
theorem decode_encode_host (cfg : Config) {i : Instr} (h : isBusRow i = false) : decode cfg (encode i) = .ok i := by
  cases i with
  | hostInputSet k v => exact decode_encode_inputSet cfg k v
  | hostReset => rfl
  | hostBusStep => rfl
  | hostTileInfoTx => rfl
  | hostTileInfoFg => rfl
  | hostTileInfoBg => rfl
  | hostPalLookup => rfl
  | hostDraw => rfl
  | hostRunFrame => rfl
  | _ => cases h

/-- Settles O1, by the format: a BUS instruction is the row of a cycle kind, a HOST instruction that of its selector. -/
theorem decodeOfEncodeIsIdentity : Obligations.DecodeOfEncodeIsIdentity := by
  intro cfg i hwf
  cases hrow : isBusRow i with
  | false => exact decode_encode_host cfg hrow
  | true =>
    obtain ⟨k, c, b, hc, rfl⟩ := exists_rowInstr hrow hwf
    exact decode_encode_rowInstr hc hwf

/-- Settles O2: the decoded row is the one of the pin word's kind, whose control pins are those of the pin word. -/
theorem encodeOfDecodedPinsIsIdentity : Obligations.EncodeOfDecodedPinsIsIdentity := by
  intro cfg p n
  obtain ⟨hctl, hfree⟩ := (classify_eq_iff (Ctl.ofPins p) _).mp rfl
  rw [decodeBus_eq_rowInstr]
  exact ⟨(wf_rowInstr _ _ _ _).trans hfree, by rw [encode_rowInstr, hctl, encodeBus_ofPins]⟩

/-- Settles O3: each of the spec's words is decoded by evaluation. -/
theorem specWordsDecode : Obligations.SpecWordsDecode :=
  ⟨by decide, by decide, by decide, by decide, by decide, by decide, rfl⟩

/-! ### The classification table (R82) -/

/-- The table searched at each of the 32 values of the control pins. -/
theorem find?_ctlTable_kind (c : Ctl) :
    (ctlTable.find? fun r => r.matches c).map CtlRow.kind = some (classify c) := by
  obtain ⟨wr, rd, iorq, mreq, m1⟩ := c
  revert wr rd iorq mreq m1
  decide

/-- Settles O4: the search finds a row, and that row's kind is the classification. -/
theorem classifyIsFirstMatchingRow : Obligations.ClassifyIsFirstMatchingRow := by
  intro c
  obtain ⟨r, hr, hk⟩ := Option.map_eq_some_iff.mp (find?_ctlTable_kind c)
  exact ⟨r, hr, hk.symm⟩

/-! ### Reserved selectors (R85, R87) -/

theorem decodeHost_of_not_mem_selectors {h : BitVec 8} (hs : h ∉ selectors) (o : HostOperands) :
    decodeHost h o = .error (.reservedHostOp h) := by
  simp only [selectors, List.mem_cons, List.not_mem_nil, or_false, not_or] at hs
  simp only [decodeHost, hs, if_false]

theorem decodeHost_of_mem_selectors {h : BitVec 8} (hs : h ∈ selectors) (o : HostOperands) :
    ∃ i, decodeHost h o = .ok i := by
  simp only [selectors, List.mem_cons, List.not_mem_nil, or_false] at hs
  rcases hs with rfl | rfl | rfl | rfl | rfl | rfl | rfl | rfl | rfl | rfl | rfl <;> exact ⟨_, rfl⟩

theorem refuseCall_of_none {s : State} (hf : s.fault = none) (h : BitVec 8) :
    refuseCall (.reservedHostOp h) s = .refused (.reservedHostOp h) :=
  running_of_none hf _

/-- Settles O5: the decoder has no instruction for a reserved selector, and the step answers its refusal. -/
theorem reservedSelectorIsRefused : Obligations.ReservedSelectorIsRefused := by
  refine ⟨fun s h o rest hs hf hc => ?_, fun _ _ o hs => decodeHost_of_mem_selectors hs o⟩
  rw [step_of_decode_error hc (decodeHost_of_not_mem_selectors hs o)]
  exact refuseCall_of_none (s := s.beginCall rest) hf h

end Sys2Proof.Proofs
end

section
/-! PROOF. The dispatcher (spec/41_bus_dispatch.md): what a row that completes sends, stores and leaves alone, said once
for every operation; which store a generic read reaches; and from that the memory reads (O11 to O15), the memory writes
(O16 to O22), the other cycles (O23 to O26) and bus steps as a whole (O27 to O29). -/

namespace Sys2Proof.Proofs

open Sys2Proof.Machine Sys2Proof.Spec

/-! ### What an operation sends and writes -/

/-- What an operation hands out before the pins return (R105 to R107, R111, R119). -/
def sentBy (s : State) (d : Byte) : BusOp → List Output
  | .tile l off => [.markTileDirty l (s.slotOf l off)]
  | .scroll l k => [.setScrollX l (scrollValue s.cfg ((s.scroll.get l).set k d))]
  | _ => []

/-- The parts of the state an operation writes beside the byte stores, the timing state and the outbox. -/
def writtenBy : BusOp → List Part
  | .tile _ _ => [.dirty]
  | .palette _ => [.palette]
  | .scroll _ _ => [.scroll, .scrollX]
  | .bank => [.bankIndex]
  | .ack => [.draws]
  | _ => []

theorem apply_outbox (op : BusOp) (d : Byte) (s : State) : (op.apply d s).outbox = s.outbox ++ sentBy s d op := by
  cases op with
  | tile => rfl
  | scroll => rfl
  | _ => exact (List.append_nil _).symm

/-! ### What an operation leaves alone -/

theorem same_trans {s t u : State} {part : Part} (h : Same s t part) (k : Same t u part) : Same s u part := by
  cases part <;> exact Eq.trans k h

theorem same_advance (s : State) (n : Nat) {part : Part} (ht : part ≠ .timing) : Same s (s.advance n) part := by
  cases part with
  | timing => exact absurd rfl ht
  | _ => rfl

theorem same_busReturn (s : State) (c : Ctl) (b : BusOperands) (d : Byte) {part : Part} (hp : part ≠ .pinsOut)
    (ho : part ≠ .outbox) : Same s (s.busReturn c b d) part := by
  cases part with
  | pinsOut => exact absurd rfl hp
  | outbox => exact absurd rfl ho
  | _ => rfl

theorem same_apply (op : BusOp) (d : Byte) (s : State) {part : Part} (ht : part ≠ .timing) (ho : part ≠ .outbox)
    (hp : part ∉ writtenBy op) : Same s (op.apply d s) part := by
  cases part with
  | timing => exact absurd rfl ht
  | outbox => exact absurd rfl ho
  | palette => exact BusOp.apply_palette op d s (by rintro off rfl; exact hp (by simp [writtenBy]))
  | dirty => exact BusOp.apply_dirty op d s (by rintro l off rfl; exact hp (by simp [writtenBy]))
  | bankIndex => exact BusOp.apply_bankIndex op d s (by rintro rfl; exact hp (by simp [writtenBy]))
  | scroll =>
    cases op with
    | scroll => exact absurd (by simp [writtenBy]) hp
    | _ => rfl
  | scrollX =>
    cases op with
    | scroll => exact absurd (by simp [writtenBy]) hp
    | _ => rfl
  | draws =>
    cases op with
    | ack => exact absurd (by simp [writtenBy]) hp
    | _ => rfl
  | _ => cases op <;> rfl

/-! ### What a row that completes leaves (R100, R125) -/

section Effects

variable {c : Ctl} {b : BusOperands} {op : BusOp} {d : Byte} {s t : State} (h : Effect c b op d s t)
include h

theorem returned_of_effect : Returned (pack c b) d t := by
  rw [h.result]
  exact returned_busReturn c b d _

theorem cycle_of_effect (hack : op ≠ .ack) : Cycle (pack c b) b.ticks d (sentBy s b.data op) s t := by
  rw [h.result]
  refine cycle_busReturn c b d ?_ (apply_outbox op b.data _)
  rw [BusOp.apply_timing, if_neg hack]

/-- The frame of a row: beside timing, pins and outbox, its operation's parts alone change. -/
theorem unchanged_of_effect : Unchanged ([.timing, .pinsOut, .outbox] ++ writtenBy op) s t := by
  rw [h.result]
  intro part hp
  simp only [List.mem_append, List.mem_cons, List.not_mem_nil, or_false, not_or] at hp
  obtain ⟨⟨htiming, hpins, hout⟩, hop⟩ := hp
  have hadvance := same_advance s b.ticks htiming
  have happly := same_apply op b.data (s.advance b.ticks) htiming hout hop
  exact same_trans (same_trans hadvance happly) (same_busReturn _ c b d hpins hout)

theorem fault_of_effect : t.fault = none := by
  rw [h.result, State.busReturn_fault, BusOp.apply_fault]
  exact h.running

theorem sameStores_of_effect (htarget : op.target = none) : SameStores s t := by
  rw [h.result]
  exact byteAt_congr fun st => by rw [store_busReturn, BusOp.apply_store_none op _ _ htarget, store_advance]

theorem storedAt_of_effect (hi : s.Inv) {st : Store} {off : Nat} (htarget : op.target = some (st, off)) :
    StoredAt st off b.data s t := by
  rw [h.result]
  refine byteAt_of_write (hi.canonical st) fun st' => ?_
  rw [store_busReturn, BusOp.apply_store_some op _ _ htarget, store_advance, store_advance]

end Effects

theorem quietCycle_of_effect {c : Ctl} {b : BusOperands} {d : Byte} {s t : State} (h : Effect c b .nothing d s t) :
    QuietCycle (pack c b) b.ticks d s t := by
  rw [h.result]
  exact quietCycle_busReturn c b d s

/-! ### That a row completes (R100) -/

/-- With no fault recorded a cycle with no operation completes, and is a quiet one. -/
theorem busCycle_quiet {s : State} (hf : s.fault = none) (c : Ctl) (b : BusOperands) (d : State → Byte) :
    ∃ t, busCycle c b d skip s = .next t ∧ QuietCycle (pack c b) b.ticks (d (s.advance b.ticks)) s t :=
  ⟨_, busCycle_of_none hf c b d skip, quietCycle_busReturn c b _ s⟩

/-- With no fault recorded a write row completes, with its operation. -/
theorem exec_writeRow {s : State} (hf : s.fault = none) (w : WriteTarget) (b : BusOperands) :
    ∃ t, exec (decodeWrite w b) s = .next t ∧ Effect .memWr b (rowOp s.cfg (decodeWrite w b)) b.data s t := by
  cases w <;> dsimp only [decodeWrite, exec] <;> exact ⟨_, busCycle_of_none hf .memWr b (sameData b) _, hf, rfl⟩

/-- R102: an address in the range of a write row reaches the row's target. -/
theorem reached_of_wf {cfg : Config} {w : WriteTarget} {b : BusOperands} (h : (decodeWrite w b).wf cfg = true) :
    Reached cfg b.addr.toNat w :=
  (wf_decodeWrite_iff cfg w b).mp h ▸ writeTarget_reached cfg b.addr.toNat

/-! ### The store a generic read reaches (R101, R103) -/

/-- A fixed ROM's entry of the memory map, if it is CPU-visible. -/
def romEntry (st : Store) (r : FixedRom) : List (Store × Region) := (r.region?.map (Prod.mk st)).toList

/-- The stores of the memory map with their places, in the order of R101. -/
def storeMap (cfg : Config) : List (Store × Region) :=
  romEntry (.rom .fixed0) cfg.rom0 ++ (romEntry (.rom .fixed1) cfg.rom1 ++ (romEntry (.rom .fixed2) cfg.rom2 ++
    [(.work, cfg.workRam), (.tile .tx, cfg.tileRam.tx), (.tile .fg, cfg.tileRam.fg), (.tile .bg, cfg.tileRam.bg),
     (.sprite, cfg.spriteRam), (.palette, cfg.paletteRam)]))

theorem map_snd_romEntry (st : Store) (r : FixedRom) : (romEntry st r).map Prod.snd = r.region?.toList := by
  unfold romEntry
  cases r.region? <;> rfl

theorem map_snd_storeMap (cfg : Config) : (storeMap cfg).map Prod.snd = storeRegions cfg := by
  simp [storeMap, storeRegions, visibleRoms, map_snd_romEntry]

theorem find?_romEntry (st : Store) (r : FixedRom) (a : Nat) :
    (romEntry st r).find? (·.2.contains a) = if r.contains a then some (st, ⟨r.base, r.size⟩) else none := by
  unfold romEntry FixedRom.contains FixedRom.region? FixedRom.base
  cases r.start <;> simp [List.find?_singleton]

/-- R101 entry 1 is the first entry of the memory map that contains the address. -/
theorem genericTarget_eq_find? (cfg : Config) (a : Nat) :
    cfg.genericTarget a = ((storeMap cfg).find? (·.2.contains a)).map fun e => (e.1, a - e.2.start) := by
  unfold Config.genericTarget storeMap
  simp only [List.find?_append, find?_romEntry, List.find?_cons, List.find?_nil]
  repeat' split
  all_goals simp_all

/-- R9 (b): no two entries of the memory map share an address. -/
theorem storeMap_unique {cfg : Config} (hc : configOk cfg = true) {a : Nat} {x y : Store × Region}
    (hx : x ∈ storeMap cfg) (hy : y ∈ storeMap cfg) (hxa : x.2.contains a = true) (hya : y.2.contains a = true) :
    x = y := by
  have hpair := (pairwiseDisjoint_iff _).mp ((configOk_iff cfg).mp hc).storesDisjoint
  rw [← map_snd_storeMap, List.pairwise_map] at hpair
  have hsymm : Std.Symm fun x y : Store × Region => ¬ (x.2.contains a = true ∧ y.2.contains a = true) :=
    ⟨fun _ _ h k => h k.symm⟩
  by_contra hne
  exact (hpair.imp fun h => (regionsDisjoint_iff _ _).mp h a).forall hx hy hne ⟨hxa, hya⟩

/-- R103: under an accepted configuration a generic read reaches the store whose place contains the address. -/
theorem genericTarget_of_mem {cfg : Config} (hc : configOk cfg = true) {st : Store} {r : Region} {a : Nat}
    (hm : (st, r) ∈ storeMap cfg) (ha : r.contains a = true) : cfg.genericTarget a = some (st, a - r.start) := by
  obtain ⟨e, he⟩ := Option.isSome_iff_exists.mp (List.find?_isSome (p := (·.2.contains a)) |>.mpr ⟨_, hm, ha⟩)
  have hea : e.2.contains a = true := by simpa using List.find?_some he
  rw [genericTarget_eq_find?, he, storeMap_unique hc (List.mem_of_find?_eq_some he) hm hea ha]
  rfl

theorem mem_romEntry {st : Store} {rom : FixedRom} {r : Region} (hs : rom.start = some r.start)
    (hz : rom.size = r.size) : (st, r) ∈ romEntry st rom := by
  simp [romEntry, FixedRom.region?, hs, hz]

theorem tileRam_mem_storeMap (cfg : Config) (l : TileLayer) : (Store.tile l, cfg.tileRam.get l) ∈ storeMap cfg := by
  cases l <;> simp [storeMap, PerTile.get]

/-! ### Memory reads (R103, R114 to R116) -/

theorem genericRead_quiet {s : State} (hf : s.fault = none) (m1 : Bool) {b : BusOperands} {st : Store} {off : Nat}
    (h : s.cfg.genericTarget b.addr.toNat = some (st, off)) :
    ∃ t, exec (.memRdGeneric m1 b) s = .next t ∧ QuietCycle (pack (.memRd m1) b) b.ticks (s.byteAt st off) s t := by
  have htarget : s.cfg.readTarget b.addr.toNat = .generic := by simp [Config.readTarget, h]
  have hrow : exec (.memRdGeneric m1 b) s = memRead m1 b s := by
    rw [← exec_decodeRead, htarget]
    rfl
  exact ⟨_, hrow.trans (memRead_of_store hf m1 h), quietCycle_busReturn _ b _ s⟩

/-- Settles O11: the region's entry of the memory map is the only one that contains the address. -/
theorem genericReadReturnsStoredByte : Obligations.GenericReadReturnsStoredByte := by
  intro m1 b s st r ⟨hi, hf⟩ hplace hlo hhi
  have hmem : (st, r) ∈ storeMap s.cfg := by
    rcases hplace with ⟨rfl, hs, hz⟩ | ⟨rfl, hs, hz⟩ | ⟨rfl, hs, hz⟩ | ⟨rfl, rfl⟩ | ⟨l, rfl, rfl⟩ | ⟨rfl, rfl⟩ |
      ⟨rfl, rfl⟩
    · simp [storeMap, mem_romEntry hs hz]
    · simp [storeMap, mem_romEntry hs hz]
    · simp [storeMap, mem_romEntry hs hz]
    · simp [storeMap]
    · exact tileRam_mem_storeMap s.cfg l
    · simp [storeMap]
    · simp [storeMap]
  exact genericRead_quiet hf m1 (genericTarget_of_mem hi.cfgOk hmem ((Region.contains_iff r _).mpr ⟨hlo, hhi⟩))

theorem exec_memRdBankwin {s : State} (hf : s.fault = none) (m1 : Bool) (b : BusOperands) :
    exec (.memRdBankwin m1 b) s =
      if s.bankInRange then busCycle (.memRd m1) b (fun u => u.readBank (busAddr b)) skip s
      else .fault (.bankOutOfRange b.addr s.bankIndex) := by
  show execMemRdBankwin m1 b s = _
  rw [execMemRdBankwin, running_of_none hf]
  rfl

/-- Settles O12: with the bank in range the row is a cycle that reads bank storage, which the timing advance keeps. -/
theorem bankWindowReadReturnsBankByte : Obligations.BankWindowReadReturnsBankByte := by
  intro m1 b s hf _ hbank
  have hr : s.bankInRange = true := decide_eq_true hbank
  rw [exec_memRdBankwin hf, if_pos hr]
  exact busCycle_quiet hf (.memRd m1) b fun u => u.readBank (busAddr b)

/-- Settles O13: the bank is out of range, and the row stops with the address and the bank. -/
theorem bankOutsideStorageFaults : Obligations.BankOutsideStorageFaults := by
  intro m1 b s hf hbank
  have hr : ¬ s.bankInRange = true := by simpa [State.bankInRange] using hbank
  rw [exec_memRdBankwin hf, if_neg hr]

/-- Settles O14, by the source the map gives the address. -/
theorem inputReadReturnsPort : Obligations.InputReadReturnsPort := by
  intro m1 b s src hf _ hport
  obtain ⟨t, ht, hq⟩ := busCycle_quiet hf (.memRd m1) b fun u => u.readPort (busAddr b)
  refine ⟨t, _, ht, hq, ?_⟩
  simp only [State.readPort, busAddr, State.advance_cfg, hport]
  refine ⟨?_, ?_, ?_, ?_, ?_⟩
  · rintro rfl; rfl
  · rintro rfl; rfl
  · rintro rfl; rfl
  · rintro _ rfl; rfl
  · rintro rfl; rfl

/-- Settles O15: the row is a cycle with no operation that puts 0 on the data lines. -/
theorem unmappedReadReturnsZero : Obligations.UnmappedReadReturnsZero :=
  fun m1 b _ hf _ => busCycle_quiet hf (.memRd m1) b fun _ => 0

/-! ### Memory writes (R104 to R113, R118, R119) -/

/-- Settles O16: the row's operation stores the byte and writes no other part. -/
theorem workRamWriteStoresByte : Obligations.WorkRamWriteStoresByte := by
  intro b s ⟨hi, hf⟩ _
  obtain ⟨t, ht, he⟩ := exec_writeRow hf .workram b
  exact ⟨t, ht, cycle_of_effect he nofun, storedAt_of_effect he hi rfl, unchanged_of_effect he⟩

/-- Settles O18: the row's operation stores the byte and writes no other part. -/
theorem spriteRamWriteStoresByte : Obligations.SpriteRamWriteStoresByte := by
  intro b s ⟨hi, hf⟩ _
  obtain ⟨t, ht, he⟩ := exec_writeRow hf .sprram b
  exact ⟨t, ht, cycle_of_effect he nofun, storedAt_of_effect he hi rfl, unchanged_of_effect he⟩

/-- The row that writes a layer's tile RAM. -/
def tileTarget : TileLayer → WriteTarget
  | .tx => .txram
  | .fg => .fgram
  | .bg => .bgram

theorem rowOp_tileTarget (cfg : Config) (l : TileLayer) (b : BusOperands) :
    rowOp cfg (decodeWrite (tileTarget l) b) = .tile l (b.addr.toNat - (cfg.tileRam.get l).start) := by
  cases l <;> rfl

theorem contains_of_wf_tileTarget {cfg : Config} {l : TileLayer} {b : BusOperands}
    (h : (decodeWrite (tileTarget l) b).wf cfg = true) : (cfg.tileRam.get l).contains b.addr.toNat = true := by
  cases l <;> exact reached_of_wf h

/-- R9 (c): the slot of an offset inside a layer's tile RAM is one of the layer's flags. -/
theorem slotOf_lt_half {s : State} (hc : configOk s.cfg = true) {l : TileLayer} {off : Nat}
    (ho : off < (s.cfg.tileRam.get l).size) : s.slotOf l off < s.cfg.half l := by
  have heven := ((configOk_iff _).mp hc).tileEven l
  exact Nat.mod_lt _ (by unfold Config.half; omega)

/-- R105 to R107: a tile-RAM write sets the flag of its slot and no other. -/
theorem dirty_writeTile {s : State} {l : TileLayer} {off : Nat} (h : s.slotOf l off < (s.dirty.get l).length) (d : Byte)
    (k : TileLayer) (j : Nat) :
    ((s.writeTile l off d).dirty.get k).getD j false =
      if k = l ∧ j = s.slotOf l off then true else (s.dirty.get k).getD j false := by
  rw [State.writeTile_dirty, PerTile.get_set]
  by_cases hk : k = l
  · subst hk
    by_cases hj : j = s.slotOf k off
    · subst hj; simp [h]
    · simp [hj, List.getElem?_set_ne (Ne.symm hj)]
  · simp [hk]

theorem tileWrite_marksSlot {s : State} (hi : s.Inv) (hf : s.fault = none) {l : TileLayer} {b : BusOperands}
    (hwf : (decodeWrite (tileTarget l) b).wf s.cfg = true) {off : Nat}
    (hoff : off = b.addr.toNat - (s.cfg.tileRam.get l).start) :
    ∃ t, exec (decodeWrite (tileTarget l) b) s = .next t ∧
      Cycle (pack .memWr b) b.ticks b.data [.markTileDirty l (off % s.cfg.half l)] s t ∧
      StoredAt (.tile l) off b.data s t ∧
      (∀ k j, (t.dirty.get k).getD j false =
        if k = l ∧ j = off % s.cfg.half l then true else (s.dirty.get k).getD j false) ∧
      Unchanged [.timing, .pinsOut, .outbox, .dirty] s t := by
  obtain ⟨t, ht, he⟩ := exec_writeRow hf (tileTarget l) b
  rw [rowOp_tileTarget, ← hoff] at he
  have hslot : s.slotOf l off < (s.dirty.get l).length := by
    rw [hi.dirtyLength, hoff]
    exact slotOf_lt_half hi.cfgOk (Region.offset_lt (contains_of_wf_tileTarget hwf))
  refine ⟨t, ht, cycle_of_effect he nofun, storedAt_of_effect he hi rfl, fun k j => ?_, unchanged_of_effect he⟩
  rw [he.result]
  exact dirty_writeTile (s := s.advance b.ticks) hslot b.data k j

/-- Settles O17: the three rows are those of the layers. -/
theorem tileRamWriteMarksSlot : Obligations.TileRamWriteMarksSlot := by
  intro l b s i ⟨hi, hf⟩ hrow hwf
  rcases hrow with ⟨rfl, rfl⟩ | ⟨rfl, rfl⟩ | ⟨rfl, rfl⟩
  · exact tileWrite_marksSlot (l := .tx) hi hf hwf rfl
  · exact tileWrite_marksSlot (l := .fg) hi hf hwf rfl
  · exact tileWrite_marksSlot (l := .bg) hi hf hwf rfl

/-- R109, R141: a palette-RAM write recolours the entry of its slot and no other. -/
theorem entry_writePalette {s : State} {off : Nat} (h : off / 2 < s.palette.length) (d : Byte) (j : Nat) :
    entry (s.writePalette off d) j = if j = off / 2 then recolour off d (entry s j) else entry s j :=
  colourAt_paletteUpdate s.palette off d j h

/-- R141: what a palette-RAM write at `off` makes of a colour. -/
theorem recolour_channels (off : Nat) (d : Byte) (e : RGBA) :
    (recolour off d e).a.toNat = 255 ∧
      (off % 2 = 1 → (recolour off d e).r.toNat = 17 * (d.toNat / 16) ∧
        (recolour off d e).g.toNat = 17 * (d.toNat % 16) ∧ (recolour off d e).b = e.b) ∧
      (off % 2 = 0 → (recolour off d e).b.toNat = 17 * (d.toNat % 16) ∧ (recolour off d e).r = e.r ∧
        (recolour off d e).g = e.g) := by
  rcases Nat.mod_two_eq_zero_or_one off with h | h
  · simp [recolour, h, dupLo_toNat]
  · simp [recolour, h, dupLo_toNat, dupHi_toNat]

/-- Settles O19: R9 (d) gives the slot an entry, which the write recolours. -/
theorem paletteRamWriteUpdatesCache : Obligations.PaletteRamWriteUpdatesCache := by
  rintro b s off ⟨hi, hf⟩ hwf rfl
  obtain ⟨t, ht, he⟩ := exec_writeRow hf .palram b
  generalize hoff : b.addr.toNat - s.cfg.paletteRam.start = off
  have hslot : off / 2 < s.palette.length := by
    have hsize := ((configOk_iff _).mp hi.cfgOk).paletteSize
    have hlt := Region.offset_lt (r := s.cfg.paletteRam) (reached_of_wf (w := .palram) hwf)
    rw [hi.paletteLength]
    omega
  have hentry : ∀ j, entry t j = if j = off / 2 then recolour off b.data (entry s j) else entry s j := by
    rw [he.result, ← hoff]
    exact entry_writePalette (s := s.advance b.ticks) (hoff ▸ hslot) b.data
  refine ⟨t, ht, cycle_of_effect he nofun, hoff ▸ storedAt_of_effect he hi rfl, fun j hj => ?_, ?_⟩
  · rw [hentry, if_neg hj]
  · rw [hentry, if_pos rfl]
    obtain ⟨halpha, hodd, heven⟩ := recolour_channels off b.data (entry s (off / 2))
    exact ⟨halpha, hodd, heven, unchanged_of_effect he⟩

theorem writeRow_quiet {s : State} (hf : s.fault = none) {w : WriteTarget} {b : BusOperands}
    (hop : rowOp s.cfg (decodeWrite w b) = .nothing) :
    ∃ t, exec (decodeWrite w b) s = .next t ∧ QuietCycle (pack .memWr b) b.ticks b.data s t := by
  obtain ⟨t, ht, he⟩ := exec_writeRow hf w b
  exact ⟨t, ht, quietCycle_of_effect (hop ▸ he)⟩

/-- Settles O20: none of the three rows has an operation. -/
theorem readOnlyAndUnmappedWritesAreDropped : Obligations.ReadOnlyAndUnmappedWritesAreDropped := by
  intro b s i hf hrow _
  rcases hrow with rfl | rfl | rfl
  · exact writeRow_quiet (w := .rom) hf rfl
  · exact writeRow_quiet (w := .bankwin) hf rfl
  · exact writeRow_quiet (w := .unmapped) hf rfl

/-- The row that writes a layer's scroll window. -/
def scrollTarget : ScrollLayer → WriteTarget
  | .fg => .scrollfg
  | .bg => .scrollbg

theorem rowOp_scrollTarget (cfg : Config) (l : ScrollLayer) (b : BusOperands) :
    rowOp cfg (decodeWrite (scrollTarget l) b) = .scroll l (b.addr.toNat - cfg.scrollWin.get l) := by
  cases l <;> rfl

theorem contains_of_wf_scrollTarget {cfg : Config} {l : ScrollLayer} {b : BusOperands}
    (h : (decodeWrite (scrollTarget l) b).wf cfg = true) : (cfg.scrollRegion l).contains b.addr.toNat = true := by
  cases l <;> exact reached_of_wf h

/-- R28: a write of a byte of a window is read back, and the other two bytes stay. -/
theorem get_set_bytes3 (w : Bytes3) {j k : Nat} (hj : j < 3) (hk : k < 3) (v : Byte) :
    (w.set j v).get k = if k = j then v else w.get k := by
  interval_cases j <;> interval_cases k <;> rfl

theorem scrollWrite_pushesOffset {s : State} (hf : s.fault = none) {l : ScrollLayer} {b : BusOperands}
    (hwf : (decodeWrite (scrollTarget l) b).wf s.cfg = true) :
    ∃ t, exec (decodeWrite (scrollTarget l) b) s = .next t ∧
      Cycle (pack .memWr b) b.ticks b.data [.setScrollX l (t.scrollX.get l)] s t ∧
      ScrollCurrent t l ∧
      (∀ k, k < 3 → (t.scroll.get l).get k =
        if k = b.addr.toNat - s.cfg.scrollWin.get l then b.data else (s.scroll.get l).get k) ∧
      (∀ k, k ≠ l → t.scroll.get k = s.scroll.get k ∧ t.scrollX.get k = s.scrollX.get k) ∧
      SameStores s t ∧ Unchanged [.timing, .pinsOut, .outbox, .scroll, .scrollX] s t := by
  have hoff : b.addr.toNat - s.cfg.scrollWin.get l < 3 :=
    Region.offset_lt (r := s.cfg.scrollRegion l) (contains_of_wf_scrollTarget hwf)
  obtain ⟨t, ht, he⟩ := exec_writeRow hf (scrollTarget l) b
  rw [rowOp_scrollTarget] at he
  have hcycle := cycle_of_effect he nofun
  have hcur : ScrollCurrent t l := by
    rw [he.result]
    exact scrollCurrent_writeScroll (s.advance b.ticks) l _ b.data
  refine ⟨t, ht, ?_, hcur, fun k hk => ?_, fun k hk => ?_, sameStores_of_effect he rfl, unchanged_of_effect he⟩
  · have hx : t.scrollX.get l =
        scrollValue s.cfg ((s.scroll.get l).set (b.addr.toNat - s.cfg.scrollWin.get l) b.data) := by
      simp [he.result, BusOp.apply]
    rw [hx]
    exact hcycle
  · simp [he.result, BusOp.apply, get_set_bytes3 _ hoff hk]
  · simp [he.result, BusOp.apply, hk]

/-- Settles O21: the two rows are those of the layers. -/
theorem scrollWritePushesOffset : Obligations.ScrollWritePushesOffset := by
  intro l b s i hf hrow hwf
  rcases hrow with ⟨rfl, rfl⟩ | ⟨rfl, rfl⟩
  · exact scrollWrite_pushesOffset (l := .fg) hf hwf
  · exact scrollWrite_pushesOffset (l := .bg) hf hwf

/-- Settles O22: the shift of the model divides by `2 ^ BANK_SHIFT`. -/
theorem bankSelectStoresShiftedByte : Obligations.BankSelectStoresShiftedByte := by
  intro b s hf _
  obtain ⟨t, ht, he⟩ := exec_writeRow hf .banksel b
  have hbank : t.bankIndex = b.data >>> s.cfg.bankShift := by rw [he.result]; rfl
  refine ⟨t, ht, cycle_of_effect he nofun, ?_, sameStores_of_effect he rfl, unchanged_of_effect he⟩
  rw [hbank, BitVec.toNat_ushiftRight, Nat.shiftRight_eq_div_pow]

/-! ### The other cycles (R117, R120 to R124, R126) -/

/-- R117: an acknowledge completes, sets the latch and puts a drawn byte on the data lines. -/
theorem exec_inta {s : State} (hf : s.fault = none) (wr rd : Bool) (b : BusOperands) :
    ∃ t, exec (.inta wr rd b) s = .next t ∧ Effect (.inta wr rd) b .ack (Config.drawByte s.env.draws) s t :=
  ⟨_, busCycle_of_none hf (.inta wr rd) b (fun u => Config.drawByte u.env.draws) fun u => u.setAck.afterDraw, hf, rfl⟩

/-- Settles O23: the latch is set after the advance and before the pins return, so INT sees it. -/
theorem acknowledgeSetsLatch : Obligations.AcknowledgeSetsLatch := by
  intro wr rd b s hf _
  obtain ⟨t, ht, he⟩ := exec_inta hf wr rd b
  have htiming : t.timing = { (s.advance b.ticks).timing with intAck := true } := by rw [he.result]; rfl
  obtain ⟨-, hline, -⟩ := returned_of_effect he
  have hint : PinWord.int t.pinsOut = false := by
    rw [← Bool.not_eq_true, hline, htiming]
    simp
  exact ⟨t, _, _, ht, advanced_advance s b.ticks, htiming, returned_of_effect he, hint,
    by rw [he.result]; rfl, sameStores_of_effect he rfl, unchanged_of_effect he⟩

/-- Settles O24: none of the three rows has an operation. -/
theorem ioCyclesHaveNoPorts : Obligations.IoCyclesHaveNoPorts := fun _ _ hf =>
  ⟨busCycle_quiet hf .ioRd _ fun _ => 0, busCycle_quiet hf .ioWr _ (sameData _),
    busCycle_quiet hf .ioIdle _ (sameData _)⟩

/-- Settles O25: neither row has an operation. -/
theorem idleCyclesOnlyLetTimePass : Obligations.IdleCyclesOnlyLetTimePass := fun wr rd m1 b _ hf =>
  ⟨busCycle_quiet hf (.memIdle m1) b (sameData b), busCycle_quiet hf (.noRequest wr rd m1) b (sameData b)⟩

theorem illegalCycle_of_none {s : State} (hf : s.fault = none) (c : Ctl) (b : BusOperands) :
    illegalCycle c b s = .fault (.illegalPins (pack c b)) :=
  running_of_none hf _

/-- Settles O26: the three rows are illegal cycles of their pins. -/
theorem illegalPinsFault : Obligations.IllegalPinsFault := fun _ _ _ _ _ b _ hf =>
  ⟨illegalCycle_of_none hf _ b, illegalCycle_of_none hf _ b, illegalCycle_of_none hf _ b⟩

/-! ### Bus steps as a whole (R100) -/

/-- Settles O27: the decoder and the step classify the pins and the address alike. -/
theorem busStepDoesDecodedRow : Obligations.BusStepDoesDecodedRow := fun p n s => (exec_decodeBus p n s).symm

/-- Every row completes but those R86 and R114 stop. -/
theorem exec_row_completes {i : Instr} {s : State} (hf : s.fault = none) (hrow : isBusRow i = true)
    (hrdwr : ∀ iorq mreq m1 b, i ≠ .illegalRdwr iorq mreq m1 b) (hmemio : ∀ wr rd m1 b, i ≠ .illegalMemio wr rd m1 b)
    (hm1wr : ∀ b, i ≠ .illegalM1wr b) (hbank : (∀ m1 b, i ≠ .memRdBankwin m1 b) ∨ s.bankInRange = true) :
    ∃ t, exec i s = .next t := by
  cases i with
  | illegalRdwr => exact absurd rfl (hrdwr _ _ _ _)
  | illegalMemio => exact absurd rfl (hmemio _ _ _ _)
  | illegalM1wr => exact absurd rfl (hm1wr _)
  | memRdBankwin m1 b =>
    have hr := hbank.resolve_left fun hne => hne m1 b rfl
    rw [exec_memRdBankwin hf, if_pos hr]
    exact ⟨_, busCycle_of_none hf _ _ _ _⟩
  | hostReset => cases hrow
  | hostBusStep => cases hrow
  | hostTileInfoTx => cases hrow
  | hostTileInfoFg => cases hrow
  | hostTileInfoBg => cases hrow
  | hostPalLookup => cases hrow
  | hostDraw => cases hrow
  | hostRunFrame => cases hrow
  | hostInputSet => cases hrow
  | _ =>
    dsimp only [exec]
    exact ⟨_, busCycle_of_none hf _ _ _ _⟩

/-- Settles O28: the decoded row completes, and a row that completes records no fault. -/
theorem busStepCompletes : Obligations.BusStepCompletes := by
  intro p n s hf hrdwr hmemio hm1wr hbank
  have hrow := isBusRow_decodeBus s.cfg p n
  obtain ⟨t, ht⟩ := exec_row_completes hf hrow hrdwr hmemio hm1wr (hbank.imp_right decide_eq_true)
  obtain ⟨c, b, d, he⟩ := exec_row hrow ht
  exact ⟨t, (busStepDoesDecodedRow p n s).trans ht, fault_of_effect he⟩

/-- Settles O29: the pins a bus step returns are its own with the row's data lines and the INT line. -/
theorem busStepPassesOtherPinsThrough : Obligations.BusStepPassesOtherPinsThrough := by
  intro p n s t h
  obtain ⟨op, d, -, -, hdata, he⟩ := busStep_effect h
  have hret := returned_of_effect he
  rw [pack_ofPins] at hret
  have hd : PinWord.data t.pinsOut = d := hret.1
  rw [hd]
  exact ⟨hret, hdata⟩

end Sys2Proof.Proofs
end

section
/-! PROOF. The palette cache (spec/42_palette_cache.md): a lookup's answer (O40), and the two writes of a slot in either
order (O42). -/

namespace Sys2Proof.Proofs

open Sys2Proof.Machine Sys2Proof.Spec

/-! ### A lookup (R143) -/

theorem execHostPalLookup_of_lt {i : Nat} {s : State} (hf : s.fault = none) (hi : i < paletteEntries) :
    execHostPalLookup i s = .next (s.emit (.colour i (entry s i))) :=
  (running_of_none hf _).trans (if_neg (Nat.not_le.mpr hi))

theorem execHostPalLookup_of_ge {i : Nat} {s : State} (hf : s.fault = none) (hi : paletteEntries ≤ i) :
    execHostPalLookup i s = .fault (.paletteIndexOutOfRange i none) :=
  (running_of_none hf _).trans (if_pos hi)

theorem unchanged_emit (s : State) (o : Output) : Unchanged [.outbox] s (s.emit o) := by
  intro part hp
  cases part with
  | outbox => exact absurd List.mem_cons_self hp
  | _ => rfl

/-- Settles O40: below 1024 the answer is handed out, which changes the outbox alone. -/
theorem paletteLookupAnswersEntry : Obligations.PaletteLookupAnswersEntry := fun _ s hf =>
  ⟨fun hi => ⟨_, execHostPalLookup_of_lt hf hi, rfl, byteAt_congr (store_emit s _), unchanged_emit s _⟩,
    fun hi => execHostPalLookup_of_ge hf hi⟩

/-! ### The two writes of a slot (R144) -/

/-- R144: each write sets alpha and the channels of its own byte, so neither the colour before nor the order matters. -/
theorem recolour_both_bytes (i : Nat) (hi lo : Byte) (e : RGBA) :
    recolour (2 * i) lo (recolour (2 * i + 1) hi e) = expand hi lo ∧
      recolour (2 * i + 1) hi (recolour (2 * i) lo e) = expand hi lo := by
  have hodd : (2 * i + 1) % 2 = 1 := by omega
  have heven : 2 * i % 2 = 0 := by omega
  simp [recolour, expand, hodd, heven]

/-- R26, R142: an entry that is the expansion of its slot's bytes is current. -/
theorem paletteCurrent_of_expand {s : State} {i : Nat}
    (h : entry s i = expand (s.byteAt .palette (2 * i + 1)) (s.byteAt .palette (2 * i))) : PaletteCurrent s i := by
  unfold PaletteCurrent
  rw [h]
  exact ⟨dupHi_toNat _, dupLo_toNat _, dupLo_toNat _, rfl⟩

/-- From a legal state a write of palette RAM completes and leaves a legal state, its byte stored and the entry of its
slot recoloured. -/
theorem paletteWrite_recoloursSlot {s : State} (hs : Ready s) {b : BusOperands} {off : Nat}
    (ha : b.addr.toNat = s.cfg.paletteRam.start + off) (hoff : off / 2 < paletteEntries) :
    ∃ t, exec (.memWrPalram b) s = .next t ∧ Ready t ∧ t.cfg = s.cfg ∧ StoredAt .palette off b.data s t ∧
      entry t (off / 2) = recolour off b.data (entry s (off / 2)) := by
  obtain ⟨hi, hf⟩ := hs
  obtain ⟨t, ht, he⟩ := exec_writeRow hf .palram b
  have hop : rowOp s.cfg (decodeWrite .palram b) = .palette off :=
    congrArg BusOp.palette (Nat.sub_eq_of_eq_add' ha)
  rw [hop] at he
  have hfits : (BusOp.palette off).Fits s.cfg := by
    have hsize := ((configOk_iff _).mp hi.cfgOk).paletteSize
    simp only [BusOp.Fits]
    omega
  have hinv : t.Inv := by
    rw [he.result]
    exact inv_busReturn (inv_apply (inv_advance hi b.ticks) hfits b.data) _ _ _
  have hentry : entry t (off / 2) = recolour off b.data (entry s (off / 2)) := by
    rw [he.result]
    exact (entry_writePalette (s := s.advance b.ticks) (hi.paletteLength.symm ▸ hoff) b.data _).trans (if_pos rfl)
  exact ⟨t, ht, ⟨hinv, fault_of_effect he⟩, unchanged_of_effect he .cfg (by simp [writtenBy]),
    storedAt_of_effect he hi rfl, hentry⟩

/-- Writes of two different bytes of a slot recolour its entry one after the other, and both bytes stay. -/
theorem paletteWrites_recolourSlot {s : State} (hs : Ready s) {first second : BusOperands} {i off off' : Nat}
    (hi : i < paletteEntries) (hslot : off / 2 = i) (hslot' : off' / 2 = i) (hne : off ≠ off')
    (ha : first.addr.toNat = s.cfg.paletteRam.start + off)
    (ha' : second.addr.toNat = s.cfg.paletteRam.start + off') :
    ∃ t u, exec (.memWrPalram first) s = .next t ∧ exec (.memWrPalram second) t = .next u ∧
      entry u i = recolour off' second.data (recolour off first.data (entry s i)) ∧
      u.byteAt .palette off = first.data ∧ u.byteAt .palette off' = second.data := by
  obtain ⟨t, ht, hready, hcfg, hstored, hentry⟩ := paletteWrite_recoloursSlot hs ha (hslot ▸ hi)
  obtain ⟨u, hu, -, -, hstored', hentry'⟩ := paletteWrite_recoloursSlot hready (hcfg ▸ ha') (hslot' ▸ hi)
  rw [hslot] at hentry
  rw [hslot', hentry] at hentry'
  refine ⟨t, u, ht, hu, hentry', ?_, ?_⟩
  · simp [hstored' .palette off, hstored .palette off, hne]
  · simp [hstored' .palette off']

/-- Settles O42: in both orders the two recolourings leave the expansion of the two bytes. -/
theorem paletteWritesCommute : Obligations.PaletteWritesCommute := by
  intro i hi lo s first second hs hlt horder
  have hodd : (2 * i + 1) / 2 = i := by omega
  have heven : 2 * i / 2 = i := by omega
  rcases horder with ⟨ha, rfl, ha', rfl⟩ | ⟨ha, rfl, ha', rfl⟩
  · obtain ⟨t, u, ht, hu, hentry, hhi, hlo⟩ := paletteWrites_recolourSlot hs hlt hodd heven (by omega) ha ha'
    have hexpand := hentry.trans (recolour_both_bytes i _ _ _).1
    exact ⟨t, u, ht, hu, paletteCurrent_of_expand (by rw [hexpand, hhi, hlo]), hhi, hlo⟩
  · obtain ⟨t, u, ht, hu, hentry, hlo, hhi⟩ := paletteWrites_recolourSlot hs hlt heven hodd (by omega) ha ha'
    have hexpand := hentry.trans (recolour_both_bytes i _ _ _).2
    exact ⟨t, u, ht, hu, paletteCurrent_of_expand (by rw [hexpand, hhi, hlo]), hhi, hlo⟩

end Sys2Proof.Proofs
end

section
/-! PROOF. Tile metadata (spec/43_tile_metadata.md): a query's answer (O38), the range of its codes (O39), and the
caches, flags and calls of a draw (O47). -/

namespace Sys2Proof.Proofs

open Sys2Proof.Machine Sys2Proof.Spec

/-! ### A slot's code and colour (R160, R164) -/

theorem isTileInfo_tileInfo (s : State) (l : TileLayer) (i : Nat) : IsTileInfo s l i (s.tileInfo l i) :=
  ⟨tileInfo_code s l i, tileInfo_color s l i⟩

/-- R164: a code is `CODE_BITS[L]` bits of the attribute over the eight bits of the code byte. -/
theorem code_lt_of_isTileInfo {s : State} {l : TileLayer} {i : Nat} {info : TileInfo} (h : IsTileInfo s l i info) :
    info.code < 2 ^ (8 + s.cfg.codeBits.get l) := by
  obtain ⟨hcode, -⟩ := h
  have hbyte := (s.byteAt (.tile l) i).isLt
  have hattr := Nat.mod_lt (s.byteAt (.tile l) (i + s.cfg.half l)).toNat (Nat.two_pow_pos (s.cfg.codeBits.get l))
  rw [hcode, Nat.pow_add]
  omega

/-- Settles O39: R9 asks of the configuration a store of `2 ^ (8 + CODE_BITS[L])` tiles, and a legal state holds it. -/
theorem tileCodesIndexTheStore : Obligations.TileCodesIndexTheStore := by
  intro s l i info hi hinfo
  calc info.code < 2 ^ (8 + s.cfg.codeBits.get l) := code_lt_of_isTileInfo hinfo
    _ ≤ s.cfg.gfxTiles.get l := ((configOk_iff _).mp hi.cfgOk).tilesSuffice l
    _ = (s.gfx.get l).length := (hi.gfxLength l).symm

/-! ### A query (R161 to R163) -/

theorem answerTileInfo_of_lt {l : TileLayer} {i : Nat} {s : State} (hf : s.fault = none) (hi : i < s.cfg.half l) :
    answerTileInfo l i s = .next (s.emit (.tileInfo l i (s.tileInfo l i))) :=
  (running_of_none hf _).trans (if_neg (Nat.not_le.mpr hi))

theorem answerTileInfo_of_ge {l : TileLayer} {i : Nat} {s : State} (hf : s.fault = none) (hi : s.cfg.half l ≤ i) :
    answerTileInfo l i s = .fault (.slotOutOfRange l i) :=
  (running_of_none hf _).trans (if_pos hi)

/-- Settles O38: each layer's instruction is the one query, whose answer changes the outbox alone. -/
theorem tileInfoAnswersSlot : Obligations.TileInfoAnswersSlot := by
  intro l i s q hf hq
  have hexec : exec q s = answerTileInfo l i s := by
    rcases hq with ⟨rfl, rfl⟩ | ⟨rfl, rfl⟩ | ⟨rfl, rfl⟩ <;> rfl
  rw [hexec]
  exact ⟨fun hi => ⟨_, _, answerTileInfo_of_lt hf hi, isTileInfo_tileInfo s l i, rfl, byteAt_congr (store_emit s _),
    unchanged_emit s _⟩, answerTileInfo_of_ge hf⟩

/-! ### A draw (R165, R204) -/

theorem hostDraw_next {s t : State} (h : exec .hostDraw s = .next t) : t = s.compose.resolved :=
  draw_next (running_next h).2

theorem hostDraw_cfg {s t : State} (h : exec .hostDraw s = .next t) : t.cfg = s.cfg := by
  rw [hostDraw_next h]
  exact State.compose_cfg s

theorem hostDraw_dirty {s t : State} (h : exec .hostDraw s = .next t) (l : TileLayer) :
    t.dirty.get l = List.replicate (s.cfg.half l) false := by
  rw [hostDraw_next h]
  exact compose_dirty s l

/-- What a draw puts in the outbox is its `tile_info` calls, layer by layer. -/
theorem hostDraw_sent {s t : State} (h : exec .hostDraw s = .next t) :
    t.outbox.drop s.outbox.length = s.infoCalls .bg ++ (s.infoCalls .fg ++ s.infoCalls .tx) := by
  have hout : t.outbox = s.outbox ++ (s.infoCalls .bg ++ (s.infoCalls .fg ++ s.infoCalls .tx)) := by
    rw [hostDraw_next h]
    exact compose_outbox s
  rw [hout, List.drop_left]

/-- R204: a draw calls `tile_info` for the dirty slots, each answered with the slot's `TileInfo`. -/
theorem mem_hostDraw_sent_iff {s t : State} (h : exec .hostDraw s = .next t) (l : TileLayer) (i : Nat)
    (info : TileInfo) :
    .tileInfo l i info ∈ t.outbox.drop s.outbox.length ↔
      i < s.cfg.half l ∧ (s.dirty.get l).getD i false = true ∧ info = s.tileInfo l i := by
  rw [hostDraw_sent h]
  cases l <;> simp [mem_infoCalls]

/-- Settles O47: no flag is set after a draw, so in the legal state it leaves every cache entry is current. -/
theorem drawBringsCachesUpToDate : Obligations.DrawBringsCachesUpToDate := by
  intro s t hi h
  refine ⟨fun l i hlt => ?_, fun l i info hm => ?_, fun l i hlt hd => ?_⟩
  · have hclear : ∀ b, (t.dirty.get l).getD i b = false := by simp [hostDraw_dirty h, hlt]
    have hcurrent := (inv_hostDraw hi h).cacheCurrent l i (hostDraw_cfg h ▸ hlt) (hclear false)
    exact ⟨hclear true, hcurrent ▸ isTileInfo_tileInfo t l i⟩
  · obtain ⟨hlt, hd, -⟩ := (mem_hostDraw_sent_iff h l i info).mp hm
    exact ⟨hlt, hd⟩
  · exact ⟨_, (mem_hostDraw_sent_iff h l i _).mpr ⟨hlt, hd, rfl⟩⟩

end Sys2Proof.Proofs
end

section
/-! PROOF. Frame timing (spec/44_frame_timing.md): a bus step's timing advance and INT line (O30, O32, O33), and the
interrupt window of one-tick steps (O31). -/

namespace Sys2Proof.Proofs

open Sys2Proof.Machine Sys2Proof.Spec

/-! ### One bus step (R180 to R182) -/

/-- R100, R117: the timing advances first, and of all operations the acknowledge alone changes it then. -/
theorem busStep_timing {p : PinWord} {n : Nat} {s t : State} (h : busStep p n s = .next t) :
    t.timing = if classify (Ctl.ofPins p) = .inta then { (s.advance n).timing with intAck := true }
      else (s.advance n).timing := by
  obtain ⟨op, d, -, hack, -, he⟩ := busStep_effect h
  rw [he.result, State.busReturn_timing, BusOp.apply_timing]
  simp only [hack]
  rfl

theorem busStep_timing_of_ne_inta {p : PinWord} {n : Nat} {s t : State} (h : busStep p n s = .next t)
    (hp : classify (Ctl.ofPins p) ≠ .inta) : t.timing = s.timing.advance s.cfg.tpf s.cfg.vblankTicks n :=
  (busStep_timing h).trans (if_neg hp)

/-- R182: the INT pin a bus step returns is the INT line of the timing state it leaves. -/
theorem busStep_int {p : PinWord} {n : Nat} {s t : State} (h : busStep p n s = .next t) :
    PinWord.int t.pinsOut = t.timing.intLine := by
  obtain ⟨op, d, -, -, -, he⟩ := busStep_effect h
  rw [he.result, State.busReturn_pinsOut, int_pinsBack, State.busReturn_timing]

/-- Settles O30: the state after the advance is the one before the operation. -/
theorem everyBusStepAdvancesTiming : Obligations.EveryBusStepAdvancesTiming :=
  fun _ n s _ h => ⟨(s.advance n).timing, advanced_advance s n, busStep_timing h⟩

/-! ### The acknowledge latch (R184) -/

theorem intAck_advance (tpf vb n : Nat) (t : Timing) :
    (t.advance tpf vb n).intAck = if t.vsyncTicks - n ≤ 0 then false else t.intAck := by
  split
  · next h => rw [Timing.advance_opens h]
  · next h => rw [Timing.advance_runs (by omega)]

theorem intLine_of_intAck {t : Timing} (h : t.intAck = true) : t.intLine = false := by
  simp [Timing.intLine, h]

/-- An acknowledge sets the latch, any other bus step leaves it as the advance left it. -/
theorem busStep_intAck {p : PinWord} {n : Nat} {s t : State} (h : busStep p n s = .next t) :
    t.timing.intAck = if classify (Ctl.ofPins p) = .inta then true
      else if s.timing.vsyncTicks - n ≤ 0 then false else s.timing.intAck := by
  rw [busStep_timing h, ← intAck_advance s.cfg.tpf s.cfg.vblankTicks]
  split <;> rfl

/-- Settles O32: a latch that is set after the step holds its INT at 0. -/
theorem acknowledgeMasksUntilNextWindow : Obligations.AcknowledgeMasksUntilNextWindow := by
  intro p n s t h hack
  have hmask (ht : t.timing.intAck = true) : t.timing.intAck = true ∧ PinWord.int t.pinsOut = false :=
    ⟨ht, (busStep_int h).trans (intLine_of_intAck ht)⟩
  have hlatch := busStep_intAck h
  refine ⟨fun hruns => hmask ?_, fun hopens hp => ?_, fun hp => hmask ?_⟩
  · rw [hlatch, if_neg (Int.not_le.mpr hruns), hack, ite_self]
  · rw [hlatch, if_neg hp, if_pos hopens]
  · rw [hlatch, if_pos hp]

/-! ### No vblank (R188) -/

theorem vblankTicks_advance_nonpos {tpf n : Nat} {t : Timing} (h : t.vblankTicks ≤ 0) :
    (t.advance tpf 0 n).vblankTicks ≤ 0 := by
  by_cases ho : t.vsyncTicks - n ≤ 0
  · rw [Timing.advance_opens ho]
    exact Int.le_refl 0
  · rw [Timing.advance_runs (by omega), if_neg (Int.not_lt.mpr h)]
    exact h

theorem intLine_of_vblankTicks {t : Timing} (h : t.vblankTicks ≤ 0) : t.intLine = false := by
  simp [Timing.intLine, h]

/-- Settles O33: an opening step reloads `vblank_ticks` with 0, so no step leaves the INT line up. -/
theorem noVblankMeansNoInterrupt : Obligations.NoVblankMeansNoInterrupt := by
  intro p n s t h hvb hout
  obtain ⟨-, -, hblank⟩ := busStep_counters h
  have ht : t.timing.vblankTicks ≤ 0 := by
    rw [hblank, hvb]
    exact vblankTicks_advance_nonpos hout
  exact ⟨(busStep_int h).trans (intLine_of_vblankTicks ht), ht⟩

/-! ### The free-running timing state (R183) -/

/-- The timing state `k` ticks after the start of a frame, advanced one tick at a time with no acknowledge. -/
def freeRunning (tpf vb k : Nat) : Timing :=
  ⟨tpf - (k % tpf : Nat), if k < tpf then 0 else max 0 (vb - (k % tpf : Nat)), false⟩

theorem freeRunning_zero (tpf vb : Nat) (h : 0 < tpf) : freeRunning tpf vb 0 = ⟨tpf, 0, false⟩ := by
  simp [freeRunning, h]

/-- The tick that completes a frame opens a window; any other tick counts both counters down. -/
theorem advance_freeRunning {tpf vb : Nat} (h : 0 < tpf) (k : Nat) :
    (freeRunning tpf vb k).advance tpf vb 1 = freeRunning tpf vb (k + 1) := by
  have hlt := Nat.mod_lt k h
  have hle := Nat.mod_le k tpf
  have hsucc : (k + 1) % tpf = (k % tpf + 1) % tpf := (Nat.mod_add_mod k tpf 1).symm
  by_cases ho : k % tpf + 1 = tpf
  · have hmod : (k + 1) % tpf = 0 := by rw [hsucc, ho, Nat.mod_self]
    rw [Timing.advance_opens (by simp only [freeRunning]; omega)]
    simp only [freeRunning, hmod, if_neg (show ¬ k + 1 < tpf by omega), Timing.mk.injEq, and_true]
    omega
  · have hmod : (k + 1) % tpf = k % tpf + 1 := hsucc.trans (Nat.mod_eq_of_lt (by omega))
    have hfirst : k + 1 < tpf ↔ k < tpf := by
      refine ⟨by omega, fun hk => ?_⟩
      rw [Nat.mod_eq_of_lt hk] at ho
      omega
    rw [Timing.advance_runs (by simp only [freeRunning]; omega)]
    simp only [freeRunning, hmod, hfirst, Timing.mk.injEq, and_true]
    refine ⟨by omega, ?_⟩
    split_ifs <;> omega

theorem intLine_freeRunning (tpf vb k : Nat) :
    (freeRunning tpf vb k).intLine = true ↔ tpf ≤ k ∧ k % tpf < vb := by
  rw [Timing.intLine_iff]
  simp only [freeRunning, and_true]
  split <;> omega

/-! ### A list of bus steps -/

theorem busSteps_cons_iff {p : PinWord} {n : Nat} {rest : List (PinWord × Nat)} {s u : State} :
    busSteps ((p, n) :: rest) s = .next u ↔ ∃ t, busStep p n s = .next t ∧ busSteps rest t = .next u := by
  rw [show busStep p n s = exec (.hostBusStep p n) s from rfl, busSteps]
  cases exec (.hostBusStep p n) s <;> simp

/-- The pins after a list of bus steps are those of its last. -/
theorem busSteps_int {steps : List (PinWord × Nat)} {s t : State} (hne : steps ≠ [])
    (h : busSteps steps s = .next t) :
    PinWord.int t.pinsOut = t.timing.intLine := by
  induction steps generalizing s with
  | nil => exact absurd rfl hne
  | cons step rest ih =>
    obtain ⟨u, hu, hrest⟩ := busSteps_cons_iff.mp h
    cases rest with
    | nil =>
      cases hrest
      exact busStep_int hu
    | cons => exact ih nofun hrest

/-- One-tick steps without an acknowledge let the timing state run free. -/
theorem busSteps_freeRunning {ps : List PinWord} {s t : State} {k : Nat} (htpf : 0 < s.cfg.tpf)
    (hack : ∀ p ∈ ps, classify (Ctl.ofPins p) ≠ .inta)
    (hs : s.timing = freeRunning s.cfg.tpf s.cfg.vblankTicks k)
    (h : busSteps (ps.map fun p => (p, 1)) s = .next t) :
    t.timing = freeRunning s.cfg.tpf s.cfg.vblankTicks (k + ps.length) := by
  induction ps generalizing s k with
  | nil =>
    cases h
    exact hs
  | cons p ps ih =>
    rw [List.forall_mem_cons] at hack
    obtain ⟨hp, hps⟩ := hack
    obtain ⟨u, hu, hrest⟩ := busSteps_cons_iff.mp h
    obtain ⟨hcfg, -, -⟩ := busStep_counters hu
    have htiming : u.timing = freeRunning s.cfg.tpf s.cfg.vblankTicks (k + 1) := by
      rw [busStep_timing_of_ne_inta hu hp, hs, advance_freeRunning htpf]
    rw [← hcfg] at htpf htiming ⊢
    rw [ih htpf hps htiming hrest, List.length_cons, Nat.add_right_comm, Nat.add_assoc]

/-- R123: a step with no request completes. -/
theorem busStep_nop {s : State} (hf : s.fault = none) : ∃ t, busStep 0 1 s = .next t ∧ t.fault = none :=
  ⟨_, busCycle_of_none hf (.noRequest false false false) (BusOperands.ofPins 0 1) (sameData _) skip, hf⟩

theorem busSteps_nop {s : State} (hf : s.fault = none) (k : Nat) :
    ∃ t, busSteps (List.replicate k nop) s = .next t := by
  induction k generalizing s with
  | zero => exact ⟨s, rfl⟩
  | succ k ih =>
    obtain ⟨u, hu, huf⟩ := busStep_nop hf
    obtain ⟨t, ht⟩ := ih huf
    exact ⟨t, busSteps_cons_iff.mpr ⟨u, hu, ht⟩⟩

theorem replicate_nop (k : Nat) : List.replicate k nop = (List.replicate k (0 : PinWord)).map fun p => (p, 1) :=
  (List.map_replicate (f := fun p : PinWord => (p, 1))).symm

/-- The INT pin after one-tick steps without an acknowledge, from the start of a frame. -/
theorem busSteps_int_iff {ps : List PinWord} {s t : State} (hs : s.timing = ⟨s.cfg.tpf, 0, false⟩)
    (htpf : 0 < s.cfg.tpf) (hne : ps ≠ []) (hack : ∀ p ∈ ps, classify (Ctl.ofPins p) ≠ .inta)
    (h : busSteps (ps.map fun p => (p, 1)) s = .next t) :
    PinWord.int t.pinsOut = true ↔ s.cfg.tpf ≤ ps.length ∧ ps.length % s.cfg.tpf < s.cfg.vblankTicks := by
  have hfree := busSteps_freeRunning (k := 0) htpf hack (hs.trans (freeRunning_zero _ _ htpf).symm) h
  rw [busSteps_int (mt List.map_eq_nil_iff.mp hne) h, hfree, intLine_freeRunning, Nat.zero_add]

/-- Settles O31: the timing state after `k` such steps is the free-running one, and steps with no request complete. -/
theorem interruptWindowIsPeriodic : Obligations.InterruptWindowIsPeriodic := by
  intro s hf hs hvb
  have htpf : 0 < s.cfg.tpf := Nat.zero_lt_of_lt hvb
  refine ⟨fun ps t hne hack h => busSteps_int_iff hs htpf hne hack h, fun k hk => ?_⟩
  obtain ⟨t, ht⟩ := busSteps_nop hf k
  have hne : List.replicate k (0 : PinWord) ≠ [] := by simpa using Nat.ne_of_gt hk
  have hack : ∀ p ∈ List.replicate k (0 : PinWord), classify (Ctl.ofPins p) ≠ .inta := by
    intro p hp
    rw [List.eq_of_mem_replicate hp]
    decide
  have hint := busSteps_int_iff hs htpf hne hack (replicate_nop k ▸ ht)
  rw [List.length_replicate] at hint
  exact ⟨t, ht, hint⟩

end Sys2Proof.Proofs
end

section
/-! PROOF. The compositor (spec/45_compositor.md): the resolution of a composed bitmap (O43, O44), the bitmap as layers
painted over the background (O45, O46), and a second draw (O48). -/

namespace Sys2Proof.Proofs

open Sys2Proof.Machine Sys2Proof.Spec

/-! ### Resolving the bitmap (R207, R208) -/

theorem hostDraw_of_colours {s : State} (hf : s.fault = none)
    (h : ∀ y x, y < s.cfg.visH → x < s.cfg.visW → s.compose.visiblePixel y x < paletteEntries) :
    exec .hostDraw s = .next s.compose.resolved :=
  (running_of_none hf _).trans (resolve_of_colours (by simpa using h))

theorem hostDraw_bitmap {s t : State} (h : exec .hostDraw s = .next t) : t.bitmap = s.compose.bitmap := by
  rw [hostDraw_next h]
  rfl

theorem visiblePixel_compose (s : State) (y x : Nat) :
    s.compose.visiblePixel y x = pixelAt s.compose.bitmap (y + s.cfg.overscanRows) x := by
  rw [State.visiblePixel, State.compose_cfg]

theorem hostDraw_frame {s t : State} (h : exec .hostDraw s = .next t) :
    t.frame = tabulate s.cfg.visH s.cfg.visW fun y x => entry s (s.compose.visiblePixel y x) := by
  rw [hostDraw_next h]
  simp only [State.resolved, State.compose_cfg, State.compose_palette, entry]

/-- R209: the parts of the state a draw leaves alone. -/
theorem unchanged_hostDraw {s t : State} (h : exec .hostDraw s = .next t) :
    Unchanged [.frame, .bitmap, .dirty, .tileCache, .outbox] s t := by
  rw [hostDraw_next h]
  intro part hp
  cases part with
  | frame | bitmap | dirty | tileCache | outbox => simp at hp
  | _ => simp [Same, State.resolved]

theorem sameStores_hostDraw {s t : State} (h : exec .hostDraw s = .next t) : SameStores s t := by
  rw [hostDraw_next h]
  exact byteAt_congr fun st => (store_resolved _ st).trans (store_compose s st)

/-- Settles O43: no pixel lacks a colour, so the draw completes with the resolved frame. -/
theorem drawResolvesThroughPalette : Obligations.DrawResolvesThroughPalette := by
  intro s hf h
  have hdraw := hostDraw_of_colours hf h
  refine ⟨_, hdraw, ?_, fun y x hy hx => ?_, sameStores_hostDraw hdraw, unchanged_hostDraw hdraw⟩
  · rw [hostDraw_frame hdraw]
    exact hasShape_tabulate _ _ _
  · rw [hostDraw_frame hdraw, getD_tabulate _ hy hx, visiblePixel_compose, hostDraw_bitmap hdraw]

/-! ### The first pixel without a colour (R208, R241) -/

/-- Top to bottom, and left to right in a row. -/
def Precedes (p q : Nat × Nat) : Prop := p.1 < q.1 ∨ p.1 = q.1 ∧ p.2 < q.2

theorem visiblePixels_pairwise (cfg : Config) : (visiblePixels cfg).Pairwise Precedes := by
  rw [visiblePixels, List.pairwise_flatMap]
  constructor
  · intro y _
    rw [List.pairwise_map]
    exact List.pairwise_lt_range.imp fun hlt => .inr ⟨rfl, hlt⟩
  · refine List.pairwise_lt_range.imp fun hlt p hp q hq => .inl ?_
    obtain ⟨x, -, rfl⟩ := List.mem_map.mp hp
    obtain ⟨x', -, rfl⟩ := List.mem_map.mp hq
    exact hlt

/-- In a list whose order is `R`, a search finds the element that meets the test while none before it does. -/
theorem find?_eq_some_of_pairwise {α : Type} {R : α → α → Prop} {test : α → Bool} {a : α} {xs : List α}
    (hxs : xs.Pairwise R) (ha : a ∈ xs) (htest : test a = true) (hbefore : ∀ b ∈ xs, R b a → test b = false) :
    xs.find? test = some a := by
  induction xs with
  | nil => cases ha
  | cons b rest ih =>
    obtain ⟨hb, hrest⟩ := List.pairwise_cons.mp hxs
    rcases List.mem_cons.mp ha with rfl | hmem
    · exact List.find?_cons_of_pos htest
    · rw [List.find?_cons_of_neg (by simp [hbefore b List.mem_cons_self (hb a hmem)])]
      exact ih hrest hmem fun c hc => hbefore c (List.mem_cons_of_mem b hc)

theorem noColour_eq_true_iff (s : State) (p : Nat × Nat) :
    s.noColour p = true ↔ paletteEntries ≤ s.visiblePixel p.1 p.2 := decide_eq_true_iff

theorem resolve_of_first_noColour {s : State} {p : Nat × Nat} (h : (visiblePixels s.cfg).find? s.noColour = some p) :
    resolve s = .fault (.paletteIndexOutOfRange (s.visiblePixel p.1 p.2) (some (p.2, p.1))) := by
  simp only [resolve, h, raise]

/-- Settles O44: the visible pixels stand in this order, so the search of the resolution ends at that pixel. -/
theorem drawFaultsAtFirstPixelWithoutColour : Obligations.DrawFaultsAtFirstPixelWithoutColour := by
  intro s y x hf hy hx hpixel hbefore
  have hfirst : (visiblePixels s.compose.cfg).find? s.compose.noColour = some (y, x) := by
    rw [State.compose_cfg]
    refine find?_eq_some_of_pairwise (visiblePixels_pairwise s.cfg) ((mem_visiblePixels _ _).mpr ⟨hy, hx⟩)
      ((noColour_eq_true_iff _ _).mpr hpixel) fun q hq hprec => ?_
    obtain ⟨hqy, hqx⟩ := (mem_visiblePixels _ _).mp hq
    rw [← Bool.not_eq_true, noColour_eq_true_iff]
    exact Nat.not_le.mpr (hbefore q.1 q.2 hqy hqx hprec)
  exact (running_of_none hf _).trans (resolve_of_first_noColour hfirst)

/-! ### What the layers are painted from (R202 to R205) -/

/-- Two states agree on all a draw paints from, beside the bitmap, the caches and their flags. -/
structure SameSources (s t : State) : Prop where
  cfg : t.cfg = s.cfg
  gfx : t.gfx = s.gfx
  gfxSpr : t.gfxSpr = s.gfxSpr
  tileRam : t.tileRam = s.tileRam
  spriteRam : t.spriteRam = s.spriteRam
  scrollX : t.scrollX = s.scrollX

theorem sameSources_hostDraw {s t : State} (h : exec .hostDraw s = .next t) : SameSources s t := by
  rw [hostDraw_next h]
  constructor <;> simp [State.resolved]

/-- The current `TileInfo` of every slot of a layer. -/
def infos (s : State) (l : TileLayer) : List TileInfo := (List.range (s.cfg.half l)).map (s.tileInfo l)

theorem tileByte_of_sameSources {s t : State} (h : SameSources s t) (l : TileLayer) (off : Nat) :
    t.byteAt (.tile l) off = s.byteAt (.tile l) off := by
  simp only [State.byteAt, State.store, h.tileRam]

theorem infos_of_sameSources {s t : State} (h : SameSources s t) (l : TileLayer) : infos t l = infos s l := by
  have hinfo : t.tileInfo l = s.tileInfo l := funext (tileInfo_congr h.cfg l (tileByte_of_sameSources h l))
  simp only [infos, h.cfg, hinfo]

/-- R165, R204: in a legal state the entries a draw paints from are the current ones. -/
theorem map_cacheEntry_eq_infos {s : State} (hi : s.Inv) (l : TileLayer) :
    (List.range (s.cfg.half l)).map (s.cacheEntry l) = infos s l :=
  List.map_congr_left fun i hm => cacheEntry_current (hi.cacheCurrent l i (List.mem_range.mp hm))

theorem paintTiles_bitmap_congr {s t : State} {l : TileLayer} (h : SameSources s t)
    (hcache : t.tileCache.get l = s.tileCache.get l) (hbitmap : t.bitmap = s.bitmap) :
    (t.paintTiles l).bitmap = (s.paintTiles l).bitmap := by
  have hscroll : t.scrollArg l = s.scrollArg l := by cases l <;> simp only [State.scrollArg, h.scrollX]
  have hpixel : t.tilePixel l = s.tilePixel l := by
    funext y x
    simp only [State.tilePixel, h.cfg, h.gfx, hcache, hbitmap, hscroll]
  simp only [State.paintTiles_bitmap, h.cfg, hpixel]

theorem renderSprites_bitmap_congr {s t : State} (h : SameSources s t) (hbitmap : t.bitmap = s.bitmap) :
    t.renderSprites.bitmap = s.renderSprites.bitmap := by
  have hpixel : t.spritePixel = s.spritePixel := by
    funext y x
    simp only [State.spritePixel, h.cfg, h.gfxSpr, h.spriteRam, hbitmap]
  simp only [State.renderSprites_bitmap, h.cfg, hpixel]

/-! ### The layers over the background (R202 to R205) -/

/-- R202: the bitmap before the layers. -/
def background (s : State) : Bitmap := tabulate s.cfg.bmpH s.cfg.bmpW fun _ _ => s.cfg.bgConst

/-- `s` with `m` as its bitmap and the current infos of layer `l` in its cache. -/
def readyToPaint (s : State) (l : TileLayer) (m : Bitmap) : State :=
  { s with bitmap := m, tileCache := s.tileCache.set l (infos s l) }

@[simp] theorem readyToPaint_cfg (s : State) (l : TileLayer) (m : Bitmap) : (readyToPaint s l m).cfg = s.cfg := rfl
@[simp] theorem readyToPaint_gfx (s : State) (l : TileLayer) (m : Bitmap) : (readyToPaint s l m).gfx = s.gfx := rfl
@[simp] theorem readyToPaint_bitmap (s : State) (l : TileLayer) (m : Bitmap) : (readyToPaint s l m).bitmap = m := rfl
@[simp] theorem readyToPaint_scrollArg (s : State) (l k : TileLayer) (m : Bitmap) :
    (readyToPaint s l m).scrollArg k = s.scrollArg k := by cases k <;> rfl
@[simp] theorem readyToPaint_tileCache (s : State) (l : TileLayer) (m : Bitmap) :
    (readyToPaint s l m).tileCache.get l = infos s l := by simp [readyToPaint]

/-- R204: the bitmap a tile layer leaves when painted over `m` from its current infos. -/
def tilesOver (s : State) (l : TileLayer) (m : Bitmap) : Bitmap := ((readyToPaint s l m).paintTiles l).bitmap

/-- R205: the bitmap the sprites leave when painted over `m`. -/
def spritesOver (s : State) (m : Bitmap) : Bitmap := ({ s with bitmap := m } : State).renderSprites.bitmap

theorem sameSources_renderTileLayer {s u : State} (h : SameSources s u) (l : TileLayer) :
    SameSources s (u.renderTileLayer l) := { h with }

/-- R204: a layer's flags stay as they are while other layers are painted. -/
@[simp] theorem renderTileLayer_dirty_of_ne (u : State) {l k : TileLayer} (h : l ≠ k) :
    (u.renderTileLayer k).dirty.get l = u.dirty.get l := by
  simp [State.renderTileLayer, h]

/-- R204: a layer's cache stays as it is while other layers are painted. -/
@[simp] theorem renderTileLayer_tileCache_of_ne (u : State) {l k : TileLayer} (h : l ≠ k) :
    (u.renderTileLayer k).tileCache.get l = u.tileCache.get l := by
  simp [State.renderTileLayer, h]

/-- R165, R204: a layer is painted from the current infos if its flags and cache are still those of a legal state. -/
theorem renderTileLayer_bitmap {s u : State} {l : TileLayer} (hi : s.Inv) (h : SameSources s u)
    (hdirty : u.dirty.get l = s.dirty.get l) (hcache : u.tileCache.get l = s.tileCache.get l) :
    (u.renderTileLayer l).bitmap = tilesOver s l u.bitmap := by
  have hentry : u.cacheEntry l = s.cacheEntry l :=
    funext (cacheEntry_congr h.cfg (tileByte_of_sameSources h l) hdirty hcache)
  have hinfos : (u.decodeDirty l).tileCache.get l = (readyToPaint s l u.bitmap).tileCache.get l := by
    simp [h.cfg, hentry, map_cacheEntry_eq_infos hi]
  exact paintTiles_bitmap_congr { h with } hinfos rfl

theorem renderSprites_bitmap_of_sameSources {s u : State} (h : SameSources s u) :
    u.renderSprites.bitmap = spritesOver s u.bitmap :=
  renderSprites_bitmap_congr (s := { s with bitmap := u.bitmap }) { h with } rfl

/-- R203: a legal state's composed bitmap is the sprites over TX over FG over BG over the background. -/
theorem compose_bitmap {s : State} (hi : s.Inv) :
    s.compose.bitmap = spritesOver s (tilesOver s .tx (tilesOver s .fg (tilesOver s .bg (background s)))) := by
  have hstart : SameSources s s.clearFrame.fillBitmap := by constructor <;> rfl
  have hbg := sameSources_renderTileLayer hstart .bg
  have hfg := sameSources_renderTileLayer hbg .fg
  have htx := sameSources_renderTileLayer hfg .tx
  rw [State.compose, renderSprites_bitmap_of_sameSources htx,
    renderTileLayer_bitmap (l := .tx) hi hfg (by simp) (by simp),
    renderTileLayer_bitmap (l := .fg) hi hbg (by simp) (by simp),
    renderTileLayer_bitmap (l := .bg) hi hstart (by simp) (by simp)]
  rfl

/-- R204, R205: the same sources are painted as the same bitmap. -/
theorem compose_bitmap_of_sameSources {s t : State} (hs : s.Inv) (ht : t.Inv) (h : SameSources s t) :
    t.compose.bitmap = s.compose.bitmap := by
  have htiles : ∀ l, tilesOver t l = tilesOver s l := fun l => funext fun m =>
    paintTiles_bitmap_congr (s := readyToPaint s l m) { h with }
      (by simp [infos_of_sameSources h]) rfl
  have hsprites : spritesOver t = spritesOver s := funext fun m =>
    renderSprites_bitmap_congr (s := { s with bitmap := m }) { h with } rfl
  simp only [compose_bitmap hs, compose_bitmap ht, htiles, hsprites, background, h.cfg]

/-! ### External rasterizers (R204, R205) -/

theorem tilesOver_external {s : State} {l : TileLayer} {id : Nat} (h : s.cfg.raster.ofTile l = .external id)
    (m : Bitmap) :
    tilesOver s l m = tabulate s.cfg.bmpH s.cfg.bmpW (Config.tileRaster id l m (infos s l) (s.scrollArg l)
      (s.gfx.get l) (s.cfg.palBase.ofTile l) (s.cfg.prio.ofTile l)) := by
  have hpixel : (readyToPaint s l m).tilePixel l = Config.tileRaster id l m (infos s l) (s.scrollArg l) (s.gfx.get l)
      (s.cfg.palBase.ofTile l) (s.cfg.prio.ofTile l) := by
    funext y x
    simp [State.tilePixel, h]
  exact congrArg (tabulate s.cfg.bmpH s.cfg.bmpW) hpixel

theorem spritesOver_external {s : State} {id : Nat} (h : s.cfg.raster.spr = .external id) (m : Bitmap) :
    spritesOver s m = tabulate s.cfg.bmpH s.cfg.bmpW (Config.spriteRaster id m s.spriteRam s.gfxSpr s.cfg.palBase.spr
      s.cfg.prio.spr) := by
  simp only [spritesOver, State.renderSprites_bitmap]
  congr 1
  funext y x
  simp only [State.spritePixel, h]

/-- Settles O46: each layer of the composed bitmap is the rasterizer's over the one before. -/
theorem layersArePaintedBackToFront : Obligations.LayersArePaintedBackToFront := by
  intro s t b f x p hi hraster h
  refine ⟨_, _, _, _, rfl, rfl, rfl, rfl, ?_⟩
  have hbg : s.cfg.raster.ofTile .bg = .external b := congrArg (·.bg) hraster
  have hfg : s.cfg.raster.ofTile .fg = .external f := congrArg (·.fg) hraster
  have htx : s.cfg.raster.ofTile .tx = .external x := congrArg (·.tx) hraster
  have hspr : s.cfg.raster.spr = .external p := congrArg (·.spr) hraster
  rw [hostDraw_bitmap h, compose_bitmap hi, spritesOver_external hspr, tilesOver_external htx, tilesOver_external hfg,
    tilesOver_external hbg]
  rfl

/-! ### Rasterizers that paint nothing (R200) -/

theorem pixelAt_tilesOver_keep {s : State} {l : TileLayer} (h : s.cfg.raster.ofTile l = .keep) (m : Bitmap) {y x : Nat}
    (hy : y < s.cfg.bmpH) (hx : x < s.cfg.bmpW) : pixelAt (tilesOver s l m) y x = pixelAt m y x := by
  rw [tilesOver, State.paintTiles_bitmap, readyToPaint_cfg, pixelAt_tabulate _ hy hx]
  simp [State.tilePixel, h]

theorem pixelAt_spritesOver_keep {s : State} (h : s.cfg.raster.spr = .keep) (m : Bitmap) {y x : Nat}
    (hy : y < s.cfg.bmpH) (hx : x < s.cfg.bmpW) : pixelAt (spritesOver s m) y x = pixelAt m y x := by
  rw [spritesOver, State.renderSprites_bitmap, pixelAt_tabulate _ hy hx]
  simp [State.spritePixel, h]

/-- R207: the visible rectangle lies in the bitmap, so four layers that paint nothing leave the background there. -/
theorem visiblePixel_compose_keep {s : State} (hi : s.Inv) (h : s.cfg.raster = ⟨.keep, .keep, .keep, .keep⟩)
    {y x : Nat} (hy : y < s.cfg.visH) (hx : x < s.cfg.visW) : s.compose.visiblePixel y x = s.cfg.bgConst := by
  have hcfg := (configOk_iff _).mp hi.cfgOk
  have hy' : y + s.cfg.overscanRows < s.cfg.bmpH := by have := hcfg.rows; omega
  have hx' : x < s.cfg.bmpW := hx.trans_le hcfg.columns
  have htile : ∀ l, s.cfg.raster.ofTile l = .keep := by rw [h]; intro l; cases l <;> rfl
  have hspr : s.cfg.raster.spr = .keep := congrArg (·.spr) h
  rw [visiblePixel_compose, compose_bitmap hi, pixelAt_spritesOver_keep hspr _ hy' hx',
    pixelAt_tilesOver_keep (htile _) _ hy' hx', pixelAt_tilesOver_keep (htile _) _ hy' hx',
    pixelAt_tilesOver_keep (htile _) _ hy' hx', background, pixelAt_tabulate _ hy' hx']

/-- Settles O45: every visible pixel is the background constant, which has a colour. -/
theorem emptyLayersShowBackground : Obligations.EmptyLayersShowBackground := by
  intro s ⟨hi, hf⟩ hraster hconst
  have hpixel : ∀ y x, y < s.cfg.visH → x < s.cfg.visW → s.compose.visiblePixel y x = s.cfg.bgConst :=
    fun y x => visiblePixel_compose_keep hi hraster
  have hdraw := hostDraw_of_colours hf fun y x hy hx => (hpixel y x hy hx).trans_lt hconst
  refine ⟨_, hdraw, fun y x hy hx => ?_⟩
  rw [hostDraw_frame hdraw, getD_tabulate _ hy hx, hpixel y x hy hx]

/-! ### A second draw (R200, R204) -/

theorem infoCalls_eq_nil {s : State} {l : TileLayer} {n : Nat} (h : s.dirty.get l = List.replicate n false) :
    s.infoCalls l = [] := by
  have hslots : s.dirtySlots l = [] := List.filter_eq_nil_iff.mpr fun i _ => by
    simp [h, List.getElem?_getD_replicate_default_eq]
  rw [State.infoCalls, hslots, List.map_nil]

/-- R204: a draw with no slot dirty calls no `tile_info`. -/
theorem hostDraw_outbox_of_clean {s t : State} (hclean : ∀ l, s.infoCalls l = []) (h : exec .hostDraw s = .next t) :
    t.outbox = s.outbox := by
  rw [hostDraw_next h]
  exact (compose_outbox s).trans (by simp [hclean])

/-- Settles O48: a draw leaves a legal state of the same sources and palette, with no slot dirty. -/
theorem drawingTwiceGivesSameFrame : Obligations.DrawingTwiceGivesSameFrame := by
  intro s t u hi ht hu
  have hbitmap : t.compose.bitmap = s.compose.bitmap :=
    compose_bitmap_of_sameSources hi (inv_hostDraw hi ht) (sameSources_hostDraw ht)
  have hpalette : t.palette = s.palette := unchanged_hostDraw ht .palette (by simp)
  refine ⟨?_, hostDraw_outbox_of_clean (fun l => infoCalls_eq_nil (hostDraw_dirty ht l)) hu⟩
  simp only [hostDraw_frame ht, hostDraw_frame hu, visiblePixel_compose, hbitmap, hostDraw_cfg ht, entry, hpalette]

end Sys2Proof.Proofs
end

section
/-! PROOF. The driver and the host calls (spec/46_driver_host.md): an input write (O41), and a frame as the bus steps of
its slices, a report and one draw (O49, O50, O51). -/

namespace Sys2Proof.Proofs

open Sys2Proof.Machine Sys2Proof.Spec

/-! ### An input write (R227) -/

theorem unchanged_setInput (s : State) (k : Nat) (v : Byte) : Unchanged [.inputs] s (s.setInput k v) := by
  intro part hp
  cases part with
  | inputs => exact absurd List.mem_cons_self hp
  | _ => rfl

/-- Settles O41: the call completes by setting one of the three registers. -/
theorem inputSetStoresByte : Obligations.InputSetStoresByte := by
  intro k v s hf
  have hexec : execHostInputSet k v s = .next (s.setInput k.val v) := running_of_none hf _
  refine ⟨_, hexec, fun j => ?_, byteAt_congr (store_setInput s k.val v), unchanged_setInput s k.val v⟩
  simp only [State.setInput_inputs, get_set_bytes3 s.inputs k.isLt j.isLt, Fin.ext_iff]

/-! ### The waiting slices have no part in a bus step (R221) -/

/-- The state with other slices waiting. -/
def withSlices (cs : List Slice) (s : State) : State := { s with env := { s.env with slices := cs } }

@[simp] theorem withSlices_slices (cs : List Slice) (s : State) : (withSlices cs s).env.slices = cs := rfl
@[simp] theorem withSlices_fault (cs : List Slice) (s : State) : (withSlices cs s).fault = s.fault := rfl

theorem withSlices_of_slices_eq {cs : List Slice} {s : State} (h : s.env.slices = cs) : withSlices cs s = s := by
  subst h
  rfl

/-- The answer `o`, with other slices waiting in the state it leaves. -/
def answerWithSlices (cs : List Slice) (o : Answer) : Answer := thenDo o fun t => .next (withSlices cs t)

theorem running_withSlices {cs : List Slice} {s : State} {k : State → Answer}
    (h : k (withSlices cs s) = answerWithSlices cs (k s)) :
    running (withSlices cs s) k = answerWithSlices cs (running s k) := by
  cases hf : s.fault with
  | none => rw [running_of_none hf, running_of_none ((withSlices_fault cs s).trans hf), h]
  | some f =>
    rw [running_of_some hf, running_of_some ((withSlices_fault cs s).trans hf)]
    rfl

theorem illegalCycle_withSlices (c : Ctl) (b : BusOperands) (cs : List Slice) (s : State) :
    illegalCycle c b (withSlices cs s) = answerWithSlices cs (illegalCycle c b s) :=
  running_withSlices (k := fun _ => raise (.illegalPins (pack c b))) rfl

theorem busCycle_withSlices (c : Ctl) (b : BusOperands) {d : State → Byte} {op : State → State} {cs : List Slice}
    (hd : ∀ s, d (withSlices cs s) = d s) (hop : ∀ s, op (withSlices cs s) = withSlices cs (op s)) (s : State) :
    busCycle c b d op (withSlices cs s) = answerWithSlices cs (busCycle c b d op s) := by
  refine running_withSlices ?_
  have hadvance : (withSlices cs s).advance b.ticks = withSlices cs (s.advance b.ticks) := rfl
  dsimp only
  rw [hadvance, hop, hd]
  rfl

/-- A row of format BUS neither reads nor changes the waiting slices. -/
theorem exec_row_withSlices {i : Instr} (hrow : isBusRow i = true) (cs : List Slice) (s : State) :
    exec i (withSlices cs s) = answerWithSlices cs (exec i s) := by
  cases i with
  | illegalRdwr | illegalMemio | illegalM1wr => exact illegalCycle_withSlices _ _ cs s
  | memRdBankwin m1 b =>
    dsimp only [exec]
    refine running_withSlices ?_
    have hrange : (withSlices cs s).bankInRange = s.bankInRange := rfl
    rw [hrange]
    split
    · refine busCycle_withSlices _ _ ?_ ?_ s <;> exact fun _ => rfl
    · rfl
  | hostReset | hostBusStep | hostTileInfoTx | hostTileInfoFg | hostTileInfoBg | hostPalLookup | hostDraw
  | hostRunFrame | hostInputSet => cases hrow
  | _ =>
    dsimp only [exec]
    refine busCycle_withSlices _ _ ?_ ?_ s <;> exact fun _ => rfl

theorem busStep_withSlices (p : PinWord) (n : Nat) (cs : List Slice) (s : State) :
    busStep p n (withSlices cs s) = answerWithSlices cs (busStep p n s) := by
  rw [← exec_decodeBus, ← exec_decodeBus]
  exact exec_row_withSlices (isBusRow_decodeBus s.cfg p n) cs s

/-! ### The bus steps of slices, one slice after another -/

theorem busSteps_cons (p : PinWord) (n : Nat) (rest : Slice) (s : State) :
    busSteps ((p, n) :: rest) s = thenDo (busStep p n s) (busSteps rest) := by
  rw [show busStep p n s = exec (.hostBusStep p n) s from rfl, busSteps]
  cases exec (.hostBusStep p n) s <;> rfl

/-- R221: a slice is a list of bus steps. -/
theorem runSlice_eq_busSteps (c : Slice) (s : State) : runSlice c s = busSteps c s := by
  induction c generalizing s with
  | nil => rfl
  | cons step rest ih => rw [busSteps_cons, ← funext ih, runSlice]

theorem busSteps_append_next {c d : Slice} {s u : State} (h : busSteps (c ++ d) s = .next u) :
    ∃ m, busSteps c s = .next m ∧ busSteps d m = .next u := by
  induction c generalizing s with
  | nil => exact ⟨s, rfl, h⟩
  | cons step rest ih =>
    obtain ⟨t, ht, hrest⟩ := busSteps_cons_iff.mp h
    obtain ⟨m, hm, hd⟩ := ih hrest
    exact ⟨m, busSteps_cons_iff.mpr ⟨t, ht, hm⟩, hd⟩

theorem busSteps_withSlices {c : Slice} {s u : State} (h : busSteps c s = .next u) (cs : List Slice) :
    busSteps c (withSlices cs s) = .next (withSlices cs u) := by
  induction c generalizing s with
  | nil =>
    cases h
    rfl
  | cons step rest ih =>
    obtain ⟨t, ht, hrest⟩ := busSteps_cons_iff.mp h
    refine busSteps_cons_iff.mpr ⟨withSlices cs t, ?_, ih hrest⟩
    rw [busStep_withSlices, ht]
    rfl

/-- Bus steps leave the waiting slices waiting. -/
theorem busSteps_slices {c : Slice} {s u : State} (h : busSteps c s = .next u) : u.env.slices = s.env.slices := by
  have hs := busSteps_withSlices h s.env.slices
  rw [withSlices_of_slices_eq rfl, h] at hs
  rw [Host.Outcome.next.inj hs, withSlices_slices]

/-! ### The loop of a frame (R220) -/

@[simp] theorem sliceTicks_append (c d : Slice) : sliceTicks (c ++ d) = sliceTicks c + sliceTicks d := by
  simp [sliceTicks]

theorem runSlices_zero (fuel done : Nat) (s : State) : runSlices fuel 0 done s = finishFrame done s := by
  cases fuel <;> rfl

/-- With ticks left the loop runs the first waiting slice, is stuck if that takes no tick, and otherwise goes on. -/
theorem runSlices_of_slice {s : State} {c : Slice} {rest : List Slice} (h : s.env.slices = c :: rest)
    (fuel left done : Nat) :
    runSlices (fuel + 1) (left + 1) done s = thenDo (busSteps c (withSlices rest s)) fun u =>
      if sliceTicks c = 0 then .fault .engineStalled
      else runSlices fuel (left + 1 - sliceTicks c) (done + sliceTicks c) u := by
  have hnext : s.nextSlice (left + 1) = c := by rw [State.nextSlice, h]
  have hafter : s.afterSlice = withSlices rest s := by rw [State.afterSlice, h]; rfl
  rw [runSlices, hnext, hafter, runSlice_eq_busSteps]
  rfl

/-- The slices `cs` take at least one tick each and reach `left` ticks with the last of them, not before. -/
structure Reaches (left : Nat) (cs : List Slice) : Prop where
  ticks : ∀ c ∈ cs, 1 ≤ sliceTicks c
  before : ∀ k, k < cs.length → sliceTicks (cs.take k).flatten < left
  last : left ≤ sliceTicks cs.flatten

theorem reaches_nil {left : Nat} (h : Reaches left []) : left = 0 := Nat.le_zero.mp h.last

/-- Slices that reach a target start with ticks left, and after the first the others reach what it leaves. -/
theorem reaches_cons {left : Nat} {c : Slice} {cs : List Slice} (h : Reaches left (c :: cs)) :
    0 < left ∧ 0 < sliceTicks c ∧ Reaches (left - sliceTicks c) cs := by
  obtain ⟨hc, hcs⟩ := List.forall_mem_cons.mp h.ticks
  refine ⟨h.before 0 (Nat.succ_pos _), hc, hcs, fun k hk => ?_, ?_⟩
  · have hk' := h.before (k + 1) (Nat.succ_lt_succ hk)
    rw [List.take_succ_cons, List.flatten_cons, sliceTicks_append] at hk'
    omega
  · have hlast := h.last
    rw [List.flatten_cons, sliceTicks_append] at hlast
    omega

/-- R220: over slices that reach the target the loop does all their bus steps in order, then ends the frame. The waiting
slices leave the queue one by one, which no bus step sees. -/
theorem runSlices_of_reaches {cs restS : List Slice} {fuel left done : Nat} {s u : State}
    (hcs : s.env.slices = cs ++ restS) (hreach : Reaches left cs) (hfuel : left ≤ fuel)
    (h : busSteps cs.flatten (withSlices restS s) = .next u) :
    runSlices fuel left done s = finishFrame (done + sliceTicks cs.flatten) u := by
  induction cs generalizing fuel left done s with
  | nil =>
    rw [List.nil_append] at hcs
    rw [withSlices_of_slices_eq hcs] at h
    cases h
    rw [reaches_nil hreach, runSlices_zero]
    rfl
  | cons c cs ih =>
    obtain ⟨hleft, hc, hreach'⟩ := reaches_cons hreach
    obtain ⟨left, rfl⟩ := Nat.exists_eq_add_one_of_ne_zero hleft.ne'
    obtain ⟨fuel, rfl⟩ := Nat.exists_eq_add_one_of_ne_zero (hleft.trans_le hfuel).ne'
    rw [List.cons_append] at hcs
    rw [List.flatten_cons] at h
    obtain ⟨m, hm, hrest⟩ := busSteps_append_next h
    have hfirst : busSteps c (withSlices (cs ++ restS) s) = .next (withSlices (cs ++ restS) m) :=
      busSteps_withSlices hm (cs ++ restS)
    have hback : withSlices restS (withSlices (cs ++ restS) m) = m := withSlices_of_slices_eq (busSteps_slices hm)
    rw [runSlices_of_slice hcs, hfirst, thenDo_next_eq, if_neg hc.ne',
      ih (withSlices_slices _ m) hreach' (by omega) (hback.symm ▸ hrest), List.flatten_cons, sliceTicks_append,
      Nat.add_assoc]

/-! ### A frame (R220, R226) -/

/-- The state after the pacing answer is taken, the answers `restP` still waiting. -/
def withPacing (restP : List Nat) (s : State) : State := { s with env := { s.env with pacing := restP } }

/-- R226: with a pacing answer waiting a frame runs the loop for that target. -/
theorem hostRunFrame_of_pacing {s : State} (hf : s.fault = none) {target : Nat} {restP : List Nat}
    (hp : s.env.pacing = target :: restP) (x : Nat) :
    exec (.hostRunFrame x) s = runSlices target target 0 (withPacing restP s) := by
  have htarget : s.ticksToRun x = target := by rw [State.ticksToRun, hp]
  have hafter : s.afterPacing = withPacing restP s := by rw [State.afterPacing, hp]; rfl
  refine (running_of_none hf _).trans ?_
  rw [runFrame, htarget, hafter]

/-- Settles O49: the loop over the slices ends in the report and the draw. -/
theorem runFrameRunsSlicesThenDrawsOnce : Obligations.RunFrameRunsSlicesThenDrawsOnce := by
  intro s u v x target cs restP restS hf hp hs hticks hbefore hlast hsteps hdraw
  obtain ⟨-, hdraw⟩ := running_next hdraw
  calc exec (.hostRunFrame x) s
      = runSlices target target 0 (withPacing restP s) := hostRunFrame_of_pacing hf hp x
    _ = finishFrame (0 + sliceTicks cs.flatten) u := runSlices_of_reaches hs ⟨hticks, hbefore, hlast⟩ le_rfl hsteps
    _ = .next v := by rw [Nat.zero_add]; exact hdraw

/-- What a frame of no ticks draws from: the pacing answer is taken and 0 ticks are reported. -/
def reportedNoTicks (restP : List Nat) (s : State) : State := (withPacing restP s).emit (.ticksExecuted 0)

theorem unchanged_reportedNoTicks (restP : List Nat) (s : State) :
    Unchanged [.outbox, .pacing] s (reportedNoTicks restP s) := by
  intro part hp
  cases part with
  | outbox | pacing => simp at hp
  | _ => rfl

/-- R220: a frame of target 0 is one draw. -/
theorem hostRunFrame_of_no_ticks {s : State} (hf : s.fault = none) {restP : List Nat} (hp : s.env.pacing = 0 :: restP)
    (x : Nat) : exec (.hostRunFrame x) s = exec .hostDraw (reportedNoTicks restP s) := by
  rw [hostRunFrame_of_pacing hf hp, runSlices_zero]
  exact (running_of_none (s := reportedNoTicks restP s) hf draw).symm

/-- What was handed out before a draw is still in the outbox after it. -/
theorem mem_outbox_of_hostDraw {s t : State} (h : exec .hostDraw s = .next t) {o : Output} (ho : o ∈ s.outbox) :
    o ∈ t.outbox := by
  rw [hostDraw_next h]
  exact (compose_outbox s).symm ▸ List.mem_append_left _ ho

/-- Settles O50: the draw resolves through the palette, and keeps all the report and the taken answer leave alone. -/
theorem runFrameOfNoTicksStillDraws : Obligations.RunFrameOfNoTicksStillDraws := by
  intro s x restP hf hp hcolours
  obtain ⟨t, hdraw, -, hframe, hstores, hunch⟩ := drawResolvesThroughPalette (reportedNoTicks restP s) hf hcolours
  refine ⟨t, (hostRunFrame_of_no_ticks hf hp x).trans hdraw, hdraw, ?_, hunch .pacing (by simp), hframe, hstores, ?_⟩
  · exact mem_outbox_of_hostDraw hdraw (List.mem_append_right _ List.mem_cons_self)
  · intro part hpart
    simp only [List.mem_cons, List.not_mem_nil, or_false, not_or] at hpart
    exact same_trans (unchanged_reportedNoTicks restP s part (by simp [hpart])) (hunch part (by simp [hpart]))

/-- Settles O51: the loop starts with that slice, and answers its fault or stops at its 0 ticks. -/
theorem runFrameStopsOnFaultOrStall : Obligations.RunFrameStopsOnFaultOrStall := by
  intro s x target c restP restS hf hp hs htarget
  obtain ⟨left, rfl⟩ := Nat.exists_eq_add_one_of_ne_zero (Nat.one_le_iff_ne_zero.mp htarget)
  have hrun := (hostRunFrame_of_pacing hf hp x).trans
    (runSlices_of_slice (s := withPacing restP s) hs left left 0)
  refine ⟨fun f hfault => ?_, fun u hnext hticks => ?_⟩
  · exact hrun.trans (congrArg (thenDo · _) hfault)
  · exact (hrun.trans (congrArg (thenDo · _) hnext)).trans (if_pos hticks)

end Sys2Proof.Proofs
end

section
/-! PROOF. Exceptions and the platform (spec/60_exceptions.md): the host calls that are neither a bus step, a frame nor an
initialisation can do one of three things, and none of them moves the only timer (O60). -/

namespace Sys2Proof.Proofs

open Sys2Proof.Machine Sys2Proof.Spec

/-- R80: the words of a row of format BUS are a pin word and its ticks. -/
theorem encode_of_isBusRow {i : Instr} (hrow : isBusRow i = true) : ∃ p n, encode i = .bus p n := by
  cases i with
  | hostReset | hostBusStep | hostTileInfoTx | hostTileInfoFg | hostTileInfoBg | hostPalLookup | hostDraw
  | hostRunFrame | hostInputSet => cases hrow
  | _ => exact ⟨_, _, rfl⟩

/-- `exec_next` without its bus step: a HOST call that completes gave an answer, set an input or drew. -/
theorem exec_next_of_not_isBusRow {i : Instr} {s t : State} (hrow : ¬ isBusRow i = true)
    (hreset : ∀ l, i ≠ .hostReset l) (hbus : ∀ p n, i ≠ .hostBusStep p n) (hframe : ∀ x, i ≠ .hostRunFrame x)
    (h : exec i s = .next t) :
    (∃ o, t = s.emit o) ∨ (∃ k v, t = s.setInput k v) ∨ t = s.compose.resolved := by
  cases i with
  | hostReset l => exact absurd rfl (hreset l)
  | hostBusStep p n => exact absurd rfl (hbus p n)
  | hostRunFrame x => exact absurd rfl (hframe x)
  | hostTileInfoTx | hostTileInfoFg | hostTileInfoBg => exact .inl (answerTileInfo_next h)
  | hostPalLookup => exact .inl (execHostPalLookup_next h)
  | hostInputSet k v => exact .inr (.inl ⟨_, _, execHostInputSet_next h⟩)
  | hostDraw => exact .inr (.inr (hostDraw_next h))
  | _ => exact absurd rfl hrow

/-- Settles O60: an instruction with no pin word is no row, and answers, inputs and draws touch no timing or pins. -/
theorem onlyBusStepsMoveTime : Obligations.OnlyBusStepsMoveTime := by
  intro i s t hword hreset hbus hframe h
  have hrow : ¬ isBusRow i = true := fun hrow =>
    let ⟨p, n, he⟩ := encode_of_isBusRow hrow
    hword p n he
  rcases exec_next_of_not_isBusRow hrow hreset hbus hframe h with ⟨o, rfl⟩ | ⟨k, v, rfl⟩ | rfl
  · exact ⟨State.emit_timing s o, State.emit_pinsOut s o⟩
  · exact ⟨State.setInput_timing s k v, State.setInput_pinsOut s k v⟩
  · exact ⟨State.compose_timing s, State.compose_pinsOut s⟩

end Sys2Proof.Proofs
end

section
/-! PROOF. Reset and hazards (spec/70_reset_and_hazards.md): the parts of the state an initialisation gives (O8), that
the launch REF is accepted and so the state after reset has its values and is legal (O10, O52), and a bank switch that
the next read of the window sees (O36). -/

namespace Sys2Proof.Proofs

open Sys2Proof.Machine Sys2Proof.Spec

/-! ### What an initialisation gives (R270, R271) -/

theorem read_imageCells {o : Option Image} {i : Image} (h : o = some i) (off : Nat) :
    (imageCells o).read off = Memory.read i.cells off := by
  rw [h]
  rfl

theorem gfx_initial (l : Launch) (env : Collaborators) (out : List Output) (k : TileLayer) :
    (State.initial l env out).gfx.get k = decodedStore k (l.cfg.gfxTiles.get k) (l.images.tileRom.get k) := by
  cases k <;> rfl

theorem scroll_initial (l : Launch) (env : Collaborators) (out : List Output) (k : ScrollLayer) :
    (State.initial l env out).scroll.get k = ⟨0, 0, 0⟩ := by
  cases k <;> rfl

/-- R36: every slot is dirty after an initialisation. -/
theorem dirty_initial (l : Launch) (env : Collaborators) (out : List Output) (k : TileLayer) {i : Nat}
    (hi : i < l.cfg.half k) : ((State.initial l env out).dirty.get k).getD i false = true := by
  have hall : (State.initial l env out).dirty.get k = List.replicate (l.cfg.half k) true := by cases k <;> rfl
  simp [hall, hi]

/-- Settles O8: an accepted launch gives its initial state, whatever state it replaces. -/
theorem resetRebuildsEverything : Obligations.ResetRebuildsEverything := by
  intro l s h
  have legal := inv_initial h s.env s.outbox
  refine ⟨_, execHostReset_of_ok h s, rfl, rfl, fun st off hst => byteAt_initial l _ _ hst off,
    fun _ => read_imageCells, fun _ => read_imageCells, fun _ => read_imageCells, fun _ => read_imageCells,
    fun k i himage => ?_, rfl, legal.paletteLength, rfl, scroll_initial l _ _, rfl, rfl,
    fun k i => dirty_initial l _ _ k, rfl, rfl, rfl⟩
  rw [gfx_initial, himage]
  rfl

/-! ### The launch REF (R8, R9) -/

/-- R203: the open bases are cut to distinct ones. -/
theorem someDistinctBases_distinct : Config.someDistinctBases.distinct = true := by
  unfold Config.someDistinctBases
  split
  · assumption
  · decide

/-- R9 (a) and (h) at REF's sixteen port addresses, whatever their ports are. -/
theorem ports_ref : Config.ref.inputPorts.all (portOk Config.ref) = true := by
  have haddr : ∀ k < 16, (inSpace Config.ref ⟨0xF800 + k, 1⟩ &&
      (storeRegions Config.ref).all (regionsDisjoint ⟨0xF800 + k, 1⟩)) = true := by decide
  simp only [List.all_eq_true]
  intro e he
  obtain ⟨k, hk, rfl⟩ := List.mem_map.mp he
  unfold portOk
  rw [haddr k (List.mem_range.mp hk), Bool.true_or]

/-- REF meets R9 for every value of its OPEN fields. -/
theorem configOk_ref : configOk Config.ref = true :=
  (configOk_iff _).mpr {
    storesInSpace := by decide
    registersInSpace := by decide
    storesDisjoint := by decide
    tileEven := fun k => by cases k <;> rfl
    paletteSize := rfl
    tilesSuffice := fun k => by cases k <;> exact Nat.le_add_right _ _
    ticks := Nat.div_pos (Nat.le_add_right _ _) (Nat.succ_pos _)
    shift := by decide
    registersDisjoint := by decide
    ports := ports_ref
    bases := someDistinctBases_distinct
    rows := Nat.le_add_right _ _
    columns := Nat.le_add_right _ _
    scrollLo := by decide
    scrollHi := by decide }

theorem imageGiven_imageOf (size : Nat) (f : Nat → Byte) : imageGiven size (some (imageOf size f)) = true := by
  simp only [imageGiven, imageOk_imageOf, Bool.and_true]
  exact decide_eq_true rfl

theorem launchOk_ref : launchOk Launch.ref = true :=
  (launchOk_iff _).mpr {
    cfgOk := configOk_ref
    fixed0 := imageGiven_imageOf _ _
    fixed1 := imageGiven_imageOf _ _
    fixed2 := imageGiven_imageOf _ _
    bank := imageGiven_imageOf _ _
    tiles := fun k => by cases k <;> exact imageOk_imageOf _ _
    sprites := imageOk_imageOf _ _ }

/-! ### The state after reset (R270) -/

/-- Settles O10: the state is REF's initial one, and R9 (f) gives a tick per frame. -/
theorem resetStateValues : Obligations.ResetStateValues := by
  have hticks : 1 ≤ Config.ref.tpf := ((configOk_iff _).mp configOk_ref).ticks
  exact ⟨fun _ off hst => byteAt_initial _ _ _ hst off, rfl, rfl, rfl, Int.natCast_ediv _ _, Int.ofNat_le.mpr hticks,
    rfl, rfl, fun k _ => dirty_initial _ _ _ k, rfl, launchOk_ref⟩

/-- Settles O52: an accepted launch gives a legal state, and REF is accepted. -/
theorem resetStateIsLegal : Obligations.ResetStateIsLegal :=
  inv_initial launchOk_ref _ _

/-! ### A bank switch (R281) -/

/-- A bus write of an address in a write row's range is that row. -/
theorem exec_mwr_of_wf {s : State} {w : WriteTarget} {a : BitVec 16} {d : Byte} {n : Nat}
    (h : (decodeWrite w (plainPins a d n)).wf s.cfg = true) :
    exec (.hostBusStep (mwr a d) n) s = exec (decodeWrite w (plainPins a d n)) s := by
  rw [exec_mwr, ← exec_decodeWrite, (wf_decodeWrite_iff _ _ _).mp h]

/-- A bus read of an address in a read row's range is that row. -/
theorem exec_mrd_of_wf {s : State} {r : ReadTarget} {a : BitVec 16} {n : Nat}
    (h : (decodeRead r false (plainPins a 0 n)).wf s.cfg = true) :
    exec (.hostBusStep (mrd a) n) s = exec (decodeRead r false (plainPins a 0 n)) s := by
  rw [exec_mrd, ← exec_decodeRead, (wf_decodeRead_iff _ _ _ _).mp h]

/-- Settles O36: the write leaves bank `D >> BANK_SHIFT` selected and the configuration and bank storage as they were,
and from there the read is one of that bank. -/
theorem bankSwitchIsSeenByNextRead : Obligations.BankSwitchIsSeenByNextRead := by
  intro a d n m s hf _ hwrite hread hbank
  obtain ⟨t, ht, -, hindex, hstores, hkept⟩ := bankSelectStoresShiftedByte (plainPins _ d n) s hf hwrite
  have hcfg : t.cfg = s.cfg := hkept .cfg (by decide)
  have hfault : t.fault = none := (hkept .fault (by decide)).trans hf
  rw [← hcfg] at hread
  obtain ⟨u, hu, ⟨-, ⟨hdata, -⟩, -⟩, -⟩ :=
    bankWindowReadReturnsBankByte false (plainPins a 0 m) t hfault hread (by rwa [hindex, hcfg])
  refine ⟨t, u, (exec_mwr_of_wf (w := .banksel) hwrite).trans ht, (exec_mrd_of_wf (r := .bankwin) hread).trans hu, ?_⟩
  rw [hdata, hstores, hindex, hcfg]
  rfl

end Sys2Proof.Proofs
end
